-- ==== Sys2Proof/Word.lean ====
section
/-! DEFINITION. The word types of the 65C816 (spec/00_scope.md section 4): the byte of the data bus, the 16-bit
register, the 24-bit address, and the two widths an operation can have. -/

namespace Sys2Proof

/-- A memory cell, an 8-bit register, one bus transfer (R45). -/
abbrev Byte := BitVec 8

/-- A 16-bit register or an address inside a bank (R10). -/
abbrev Word := BitVec 16

/-- A 24-bit address, bank in bits 23 to 16 (R45, R46). -/
abbrev Addr := BitVec 24

/-- The width of an operation: `wm` and `wx` of spec/00_scope.md section 5 take these two values. -/
inductive Width where
  | w8
  | w16
  deriving DecidableEq, Repr

end Sys2Proof
end

