-- ==== Sys2Proof/Machine/Bits.lean ====
section
/-! DEFINITION. Bytes, words and addresses put together and taken apart (spec/00_scope.md section 5,
20_memory.md R50), and a value seen at a width. -/

namespace Sys2Proof.Machine

/-- `v[7:0]`. -/
def lowByte (v : Word) : Byte := v.setWidth 8

/-- `v[15:8]`. -/
def highByte (v : Word) : Byte := v.extractLsb' 8 8

/-- `high : low`. -/
def joinBytes (high low : Byte) : Word := high ++ low

/-- `zext_8`, as a word: `$00 : b`. -/
def extendByte (b : Byte) : Word := b.setWidth 16

/-- `sext_8` to 16 bits, the reading of an 8-bit branch displacement (R87). -/
def signExtendByte (b : Byte) : Word := b.signExtend 16

/-- `bank : a`, the 24-bit address of the word address `a` in a bank (R45). -/
def bankAddr (bank : Byte) (a : Word) : Addr := bank ++ a

/-- Address bits 23 to 16 (R46). -/
def bankOf (a : Addr) : Byte := a.extractLsb' 16 8

/-- Address bits 15 to 0. -/
def offsetOf (a : Addr) : Word := a.setWidth 16

/-- `inc16` of R111: the next byte in the same bank. -/
def inc16 (a : Addr) : Addr := bankAddr (bankOf a) (offsetOf a + 1)

/-- `inc24` of R111: the next byte, possibly in the next bank; `$FFFFFF` is followed by `$000000` (R137, D3,
DESIGN CHOICE of the spec, log 16: unsafe). -/
def inc24 (a : Addr) : Addr := a + 1

/-- The number of bits of a width. -/
def widthBits : Width → Nat
  | .w8 => 8
  | .w16 => 16

/-- The number of bytes of a width. -/
def widthBytes : Width → Nat
  | .w8 => 1
  | .w16 => 2

/-- The low `w` bits of a word: an 8-bit value is held with a zero high byte. -/
def truncTo (w : Width) (v : Word) : Word :=
  match w with
  | .w8 => extendByte (lowByte v)
  | .w16 => v

/-- `msb_w(v) = v[w-1]`. -/
def msbAt (w : Width) (v : Word) : Bool := v.getLsbD (widthBits w - 1)

/-- `v[w-2]`, the bit that BIT moves to v (R163). -/
def nextMsbAt (w : Width) (v : Word) : Bool := v.getLsbD (widthBits w - 2)

/-- `v mod 2^w = 0`. -/
def isZeroAt (w : Width) (v : Word) : Bool := truncTo w v == 0

/-- `sext_w(v)` as an integer. -/
def signedAt (w : Width) (v : Word) : Int :=
  match w with
  | .w8 => (lowByte v).toInt
  | .w16 => v.toInt

/-- The integer value of a flag. -/
def bitNat (b : Bool) : Nat := if b then 1 else 0

end Sys2Proof.Machine
end

