-- ==== Sys2Proof/Config.lean ====
section
/-! DEFINITION. What the spec leaves to the platform or the implementation: its named parameters
(spec/00_scope.md section 4, 92_eei_decisions.md) as plain data, the byte of memory that nothing has written, and
the two free values of decimal arithmetic. -/

namespace Sys2Proof.Config

/-- INT_PRIORITY (D6): the order in which ABORT, NMI and IRQ are taken when they are pending together, one
constructor for each permutation. RESET is always first (R346). -/
inductive Priority where
  | abortNmiIrq
  | abortIrqNmi
  | nmiAbortIrq
  | nmiIrqAbort
  | irqAbortNmi
  | irqNmiAbort
  deriving DecidableEq, Repr

/-- DEC_V (D9, U21): the v flag after a decimal ADC or SBC. -/
inductive DecV where
  /-- The default of D9: the v that the binary formula gives for the same operands. -/
  | binary
  /-- Any value: `Config.freeDecV`. -/
  | free
  deriving DecidableEq, Repr

/-- DEC_INVALID (D9, U22): the result of a decimal ADC or SBC on an operand with a digit above 9. -/
inductive DecInvalid where
  /-- The default of D9: the result of the algorithm of R152. -/
  | algorithm
  /-- Any value: `Config.freeDecInvalid`. -/
  | free
  deriving DecidableEq, Repr

/-- The parameters of spec/00_scope.md section 4 that a model takes as arguments. They are held in `State.params`,
which no step writes, so that a statement about every state holds for every value of them (log 5). -/
structure Parameters where
  /-- EMU_INT_CLEARS_DBR (D11): an interrupt taken in emulation mode clears DBR. -/
  emuIntClearsDbr : Bool
  /-- BLOCK_MOVE_SETS_DBR (D14): MVN and MVP leave the destination bank in DBR. -/
  blockMoveSetsDbr : Bool
  /-- ABORT_SUPPORTED (D7): the platform asserts ABORT. -/
  abortSupported : Bool
  /-- SO_PIN (D12): the platform has a Set Overflow pin. -/
  soPin : Bool
  /-- INT_PRIORITY (D6). -/
  intPriority : Priority
  /-- DEC_V (D9). -/
  decV : DecV
  /-- DEC_INVALID (D9). -/
  decInvalid : DecInvalid
  deriving DecidableEq, Repr

/-- The defaults of 92_eei_decisions.md, under which the vectors of 95_test_vectors.md are computed (V1). -/
def defaults : Parameters where
  emuIntClearsDbr := true
  blockMoveSetsDbr := true
  abortSupported := false
  soPin := false
  intPriority := .abortNmiIrq
  decV := .binary
  decInvalid := .algorithm

/-- What a byte of memory reads as before anything is written to it. The spec leaves the initial content to the
host (R49, D4, U29). DESIGN CHOICE: `$00` (log 1). Unsafe: a proof may lean on it. -/
def unlistedByte : Byte := 0x00

/-- The v flag after a decimal operation when DEC_V is `free`: no source describes it (R152, N15, log 6). The
arguments are whether it is a subtraction, the width, the accumulator, the operand and the carry in. -/
opaque freeDecV : Bool → Width → Word → Word → Bool → Bool

/-- The result and the decimal carry of an operation on an operand with a digit above 9 when DEC_INVALID is `free`
(R152, U22, log 7). Arguments as for `freeDecV`. -/
opaque freeDecInvalid : Bool → Width → Word → Word → Bool → Word × Bool

end Sys2Proof.Config
end

