-- ==== Sys2Proof/Machine/State.lean ====
section
/-! DEFINITION. The state of one 65C816 (spec/10_state.md R10), as plain data, the reasons a step can stop, and the
state after reset (R37, R341). -/

namespace Sys2Proof.Machine

/-- The run state (R32): not readable by any instruction; written by WAI, STP, interrupts and reset. -/
inductive RunState where
  | running
  | waiting
  | stopped
  deriving DecidableEq, Repr

/-- What the platform drives into the processor during one step (R303, D5). IRQ and RESET are levels, NMI and ABORT
events; `setOverflow` is the pin of D12, without effect unless the parameter SO_PIN is set. -/
structure Inputs where
  reset : Bool
  irq : Bool
  nmi : Bool
  abort : Bool
  setOverflow : Bool
  deriving DecidableEq, Repr

/-- Memory as a list of (address, byte) pairs: addresses strictly rising, no entry equal to what an unlisted address
reads as (`Memory.wf` in Machine/Ops.lean). -/
abbrev Memory := List Host.Cell

/-- The whole state (R10 to R35). -/
structure State where
  /-- The 16-bit accumulator `C = B : A` (R11). -/
  c : Word
  /-- Index register X (R12). -/
  x : Word
  /-- Index register Y (R12). -/
  y : Word
  /-- The stack pointer `S` (R13). -/
  sp : Word
  /-- The direct register `D` (R14). -/
  d : Word
  /-- The data bank register (R15). -/
  dbr : Byte
  /-- The program bank register (R16). -/
  pbr : Byte
  /-- The program counter (R17). -/
  pc : Word
  /-- The processor status register, bits n v m x d i z c (R18). -/
  p : Byte
  /-- The emulation flag, no part of `P` (R19). -/
  e : Bool
  /-- Running, Waiting or Stopped (R32). -/
  run : RunState
  /-- An NMI event that has not been taken (R33, R304). -/
  nmiPending : Bool
  /-- An ABORT event that has not been taken (R33, R304). -/
  abortPending : Bool
  /-- The 2^24 bytes of memory (R45). -/
  mem : Memory
  /-- THE MODEL'S OWN FIELD: the inputs of the steps to come, the first entry for the next step; none active after
  the last (log 4). -/
  inputs : List Inputs
  /-- THE MODEL'S OWN FIELD: the spec's parameters; no step writes it (log 5). -/
  params : Config.Parameters
  deriving DecidableEq, Repr

/-- The reasons a step can fault: none. "The 65C816 raises no synchronous fault of any kind" (R300), so the type has
no constructor and no step answers a fault. -/
inductive Fault where
  deriving DecidableEq, Repr

/-- The reasons a step can be refused. -/
inductive Refusal where
  /-- Raised by an arm of `exec` whose instruction has no meaning yet. Safe: nothing can be proved of such a step.
  Every instruction has its meaning, so no step raises it. -/
  | notModelled (mnemonic : String)
  deriving DecidableEq, Repr

/-- The three outcomes of a step over this machine. -/
abbrev Result := Host.Outcome State Fault Refusal

/-- The machine right after reset (R37, R341). `e`, `m`, `x`, `i`, `d`, `XH`, `YH`, `SH`, `D`, `DBR`, `PBR`, the run
state and the latches are the spec's; `PC` is the word at the RESET vector, over memory with nothing listed (log 1);
`C`, `XL`, `YL`, `SL`, `n`, `v`, `z` and `c`, which R343 leaves open, are zero: DESIGN CHOICE (log 3), unsafe. -/
def State.reset : State where
  c := 0x0000
  x := 0x0000
  y := 0x0000
  sp := 0x0100
  d := 0x0000
  dbr := 0x00
  pbr := 0x00
  pc := 0x0000
  p := 0x34
  e := true
  run := .running
  nmiPending := false
  abortPending := false
  mem := []
  inputs := []
  params := Config.defaults

end Sys2Proof.Machine
end

