-- ==== Sys2Proof/Machine/Flags.lean ====
section
/-! DEFINITION. The processor status register and every flag computation of the spec (10_state.md R18 to R27,
41_arithmetic_compare.md, 42_logic_test.md, 43_shift_incdec.md). A function here works on the byte `P` alone. -/

namespace Sys2Proof.Machine

/-- The eight flags of `P` (R18). -/
inductive Flag where
  | n
  | v
  | m
  | x
  | d
  | i
  | z
  | c
  deriving DecidableEq, Repr

/-- The bit of `P` that holds a flag: "nvmx dizc", bit 7 first (R18, C27). -/
def flagBit : Flag → Nat
  | .n => 7
  | .v => 6
  | .m => 5
  | .x => 4
  | .d => 3
  | .i => 2
  | .z => 1
  | .c => 0

/-- The mask of a flag, the last row of R18's table. -/
def flagMask (f : Flag) : Byte := 0x01 <<< flagBit f

/-- A flag read from `P`. -/
def getFlag (p : Byte) (f : Flag) : Bool := p.getLsbD (flagBit f)

/-- `P` with one flag written, the other seven unchanged. -/
def setFlag (p : Byte) (f : Flag) (b : Bool) : Byte :=
  if b then p ||| flagMask f else p &&& ~~~flagMask f

/-- `SetNZ_w(v)` (spec/00_scope.md section 5). -/
def setNZ (w : Width) (v : Word) (p : Byte) : Byte :=
  setFlag (setFlag p .n (msbAt w v)) .z (isZeroAt w v)

/-- The result of an addition or subtraction with its carry and overflow flags. -/
structure ArithResult where
  value : Word
  carry : Bool
  overflow : Bool
  deriving DecidableEq, Repr

/-- A signed result that does not fit in `w` bits: outside `[-2^(w-1), 2^(w-1) - 1]` (R150, R151). -/
def outOfRange (w : Width) (v : Int) : Bool :=
  decide (v < -(2 ^ (widthBits w - 1) : Int)) || decide ((2 ^ (widthBits w - 1) : Int) - 1 < v)

/-- The v of ADC in binary mode (R150). -/
def addOverflow (w : Width) (a b : Word) (cin : Bool) : Bool :=
  outOfRange w (signedAt w a + signedAt w b + bitNat cin)

/-- The v of SBC in binary mode (R151); the borrow is `1 - P.c`. -/
def subOverflow (w : Width) (a b : Word) (cin : Bool) : Bool :=
  outOfRange w (signedAt w a - signedAt w b - bitNat (!cin))

/-- ADC in binary mode (R150): `a`, `b` are `w`-bit values. -/
def binaryAdd (w : Width) (a b : Word) (cin : Bool) : ArithResult :=
  let sum := a.toNat + b.toNat + bitNat cin
  { value := BitVec.ofNat 16 (sum % 2 ^ widthBits w)
    carry := decide (2 ^ widthBits w ≤ sum)
    overflow := addOverflow w a b cin }

/-- SBC in binary mode (R151): `a`, `b` are `w`-bit values, carry 1 means no borrow. -/
def binarySub (w : Width) (a b : Word) (cin : Bool) : ArithResult :=
  let diff : Int := (a.toNat : Int) - b.toNat - bitNat (!cin)
  { value := BitVec.ofInt 16 (diff % 2 ^ widthBits w)
    carry := decide (0 ≤ diff)
    overflow := subOverflow w a b cin }

/-- The loop of DecimalAdd (R152) over the digits of `a` and `b`, least significant first: the sum and the carry
out. The algorithm is the spec's from general knowledge (G3): PRESUMED, log 8, unsafe. -/
def decimalAddDigits : Nat → Nat → Nat → Nat → Nat × Nat
  | 0, _, _, carry => (0, carry)
  | digits + 1, a, b, carry =>
    let s := a % 16 + b % 16 + carry
    let s := if 9 < s then s + 6 else s
    let rest := decimalAddDigits digits (a / 16) (b / 16) (if 15 < s then 1 else 0)
    (s % 16 + 16 * rest.1, rest.2)

/-- The loop of DecimalSub (R152): the difference and the borrow out. PRESUMED (G3), log 8, unsafe. -/
def decimalSubDigits : Nat → Nat → Nat → Nat → Nat × Nat
  | 0, _, _, borrow => (0, borrow)
  | digits + 1, a, b, borrow =>
    let s : Int := (a % 16 : Nat) - (b % 16 : Nat) - borrow
    let t : Int := if s < 0 then s + 10 else s
    let rest := decimalSubDigits digits (a / 16) (b / 16) (if s < 0 then 1 else 0)
    ((t % 16).toNat + 16 * rest.1, rest.2)

/-- Every one of the low `digits` decimal digits is at most 9. -/
def validBcdDigits : Nat → Nat → Bool
  | 0, _ => true
  | digits + 1, a => decide (a % 16 ≤ 9) && validBcdDigits digits (a / 16)

/-- A `w`-bit value is valid packed BCD. -/
def validBcd (w : Width) (a : Word) : Bool := validBcdDigits (2 * widthBytes w) a.toNat

/-- DEC_INVALID (R152, D9, log 7): the algorithm's own result, or a free one for an operand with a digit above 9. -/
def decimalResult (params : Config.Parameters) (sub : Bool) (w : Width) (a b : Word) (cin : Bool)
    (value : Word) (carry : Bool) : Word × Bool :=
  if validBcd w a && validBcd w b then (value, carry)
  else match params.decInvalid with
    | .algorithm => (value, carry)
    | .free =>
      (truncTo w (Config.freeDecInvalid sub w a b cin).1, (Config.freeDecInvalid sub w a b cin).2)

/-- DEC_V (R152, D9, log 6): the binary formula, or a free value. -/
def decimalOverflow (params : Config.Parameters) (sub : Bool) (w : Width) (a b : Word) (cin : Bool) : Bool :=
  match params.decV with
  | .binary => if sub then subOverflow w a b cin else addOverflow w a b cin
  | .free => Config.freeDecV sub w a b cin

/-- DecimalAdd (R152). -/
def decimalAdd (params : Config.Parameters) (w : Width) (a b : Word) (cin : Bool) : ArithResult :=
  let sum := decimalAddDigits (2 * widthBytes w) a.toNat b.toNat (bitNat cin)
  let result := decimalResult params false w a b cin (BitVec.ofNat 16 sum.1) (sum.2 == 1)
  { value := result.1
    carry := result.2
    overflow := decimalOverflow params false w a b cin }

/-- DecimalSub (R152); the carry is `1 - borrow`. -/
def decimalSub (params : Config.Parameters) (w : Width) (a b : Word) (cin : Bool) : ArithResult :=
  let diff := decimalSubDigits (2 * widthBytes w) a.toNat b.toNat (bitNat (!cin))
  let result := decimalResult params true w a b cin (BitVec.ofNat 16 diff.1) (diff.2 == 0)
  { value := result.1
    carry := result.2
    overflow := decimalOverflow params true w a b cin }

/-- The addition that ADC performs, by the flag d (R150). -/
def adcResult (params : Config.Parameters) (w : Width) (a b : Word) (p : Byte) : ArithResult :=
  if getFlag p .d then decimalAdd params w a b (getFlag p .c) else binaryAdd w a b (getFlag p .c)

/-- The subtraction that SBC performs, by the flag d (R151). -/
def sbcResult (params : Config.Parameters) (w : Width) (a b : Word) (p : Byte) : ArithResult :=
  if getFlag p .d then decimalSub params w a b (getFlag p .c) else binarySub w a b (getFlag p .c)

/-- The flags of ADC and SBC: c and v from the sum, n and z from the value (R150, R151). -/
def arithFlags (w : Width) (r : ArithResult) (p : Byte) : Byte :=
  setNZ w r.value (setFlag (setFlag p .c r.carry) .v r.overflow)

/-- The flags of CMP, CPX and CPY (R153): c for an unsigned `a >= b`, n and z from the difference, v unchanged. -/
def compareFlags (w : Width) (a b : Word) (p : Byte) : Byte :=
  setNZ w (truncTo w (a - b)) (setFlag p .c (decide (b.toNat ≤ a.toNat)))

/-- The flags of BIT with a memory operand (R163): z from `a & b`, n and v from the top two bits of the operand. -/
def bitMemoryFlags (w : Width) (a b : Word) (p : Byte) : Byte :=
  setFlag (setFlag (setFlag p .z (isZeroAt w (a &&& b))) .n (msbAt w b)) .v (nextMsbAt w b)

/-- The flags of BIT immediate (R163): z alone. -/
def bitImmediateFlags (w : Width) (a b : Word) (p : Byte) : Byte :=
  setFlag p .z (isZeroAt w (a &&& b))

/-- A read-modify-write function: the new value at the width, and the new `P` (R180, R164, R165). -/
abbrev Modify := Width → Byte → Word → Word × Byte

/-- The value and flags of ASL (R170). -/
def aslValue (w : Width) (p : Byte) (old : Word) : Word × Byte :=
  let new := truncTo w (old <<< 1)
  (new, setNZ w new (setFlag p .c (msbAt w old)))

/-- The value and flags of LSR (R171). -/
def lsrValue (w : Width) (p : Byte) (old : Word) : Word × Byte :=
  let new := truncTo w old >>> 1
  (new, setNZ w new (setFlag p .c (old.getLsbD 0)))

/-- The value and flags of ROL (R172): the old carry enters at bit 0. -/
def rolValue (w : Width) (p : Byte) (old : Word) : Word × Byte :=
  let new := truncTo w (old <<< 1) ||| BitVec.ofNat 16 (bitNat (getFlag p .c))
  (new, setNZ w new (setFlag p .c (msbAt w old)))

/-- The value and flags of ROR (R173): the old carry enters at bit `w - 1`. -/
def rorValue (w : Width) (p : Byte) (old : Word) : Word × Byte :=
  let new := (truncTo w old >>> 1) ||| BitVec.ofNat 16 (bitNat (getFlag p .c) * 2 ^ (widthBits w - 1))
  (new, setNZ w new (setFlag p .c (old.getLsbD 0)))

/-- The value and flags of DEC (R174): n and z alone. -/
def decValue (w : Width) (p : Byte) (old : Word) : Word × Byte :=
  let new := truncTo w (old - 1)
  (new, setNZ w new p)

/-- The value and flags of INC (R177): n and z alone. -/
def incValue (w : Width) (p : Byte) (old : Word) : Word × Byte :=
  let new := truncTo w (old + 1)
  (new, setNZ w new p)

/-- The value and flags of TSB with accumulator `a` (R165): z from `a & old`. -/
def tsbValue (a : Word) (w : Width) (p : Byte) (old : Word) : Word × Byte :=
  (truncTo w (old ||| a), setFlag p .z (isZeroAt w (a &&& old)))

/-- The value and flags of TRB with accumulator `a` (R164): z from `a & old`. -/
def trbValue (a : Word) (w : Width) (p : Byte) (old : Word) : Word × Byte :=
  (truncTo w (old &&& ~~~a), setFlag p .z (isZeroAt w (a &&& old)))

end Sys2Proof.Machine
end

