-- ==== Sys2Proof/Machine/Ops.lean ====
section
/-! DEFINITION. The named operations on memory, registers and the stack (spec/20_memory.md, 40_addressing_modes.md
section 8), taking an interrupt and returning from one (60_exceptions.md R310, R311, R314), and reset
(70_reset_and_hazards.md R341). -/

namespace Sys2Proof.Machine

/-! ## Memory -/

/-- `MemRead(a, 1)` on the list form: the listed byte, or what an unlisted address reads as (R45, R49, log 1). -/
def Memory.read : Memory → Nat → Byte
  | [], _ => Config.unlistedByte
  | (b, v) :: rest, a => if b = a then v else Memory.read rest a

/-- The list without an entry for `a`. -/
def Memory.erase : Memory → Nat → Memory
  | [], _ => []
  | (b, v) :: rest, a => if b = a then Memory.erase rest a else (b, v) :: Memory.erase rest a

/-- A new entry put before the first larger address. -/
def Memory.insert : Memory → Nat → Byte → Memory
  | [], a, v => [(a, v)]
  | (b, u) :: rest, a, v => if a < b then (a, v) :: (b, u) :: rest else (b, u) :: Memory.insert rest a v

/-- `MemWrite(a, 1, v)` on the list form. Writing the value that an unlisted address reads as leaves no entry, so
that equal memories are equal lists. -/
def Memory.write (mem : Memory) (a : Nat) (v : Byte) : Memory :=
  if v = Config.unlistedByte then Memory.erase mem a else Memory.insert (Memory.erase mem a) a v

/-- Addresses strictly rising from `low` on and below 2^24 (R45), and no entry equal to what an unlisted address
reads as. -/
def Memory.canonicalFrom : Nat → Memory → Bool
  | _, [] => true
  | low, (a, v) :: rest =>
    decide (low ≤ a) && decide (a < 2 ^ 24) && decide (v ≠ Config.unlistedByte) &&
      Memory.canonicalFrom (a + 1) rest

/-- The canonical form of memory. -/
def Memory.wf (mem : Memory) : Bool := Memory.canonicalFrom 0 mem

/-- `MemRead(a, 1)`. Every address exists and every read succeeds (R45, R49, R53, R70; log 2). -/
def State.read (s : State) (a : Addr) : Byte := Memory.read s.mem a.toNat

/-- `MemWrite(a, 1, v)`. -/
def State.write (s : State) (a : Addr) (v : Byte) : State := { s with mem := Memory.write s.mem a.toNat v }

/-! ## Registers -/

/-- `wm`: 8 if `P.m = 1`, else 16 (R22). -/
def wm (s : State) : Width := if getFlag s.p .m then .w8 else .w16

/-- `wx`: 8 if `P.x = 1`, else 16 (R23). -/
def wx (s : State) : Width := if getFlag s.p .x then .w8 else .w16

/-- The accumulator as a `w`-bit value: `A` or `C` (R11). -/
def accAt (w : Width) (s : State) : Word := truncTo w s.c

/-- X as a `w`-bit value: `XL` or `X` (R12). -/
def xAt (w : Width) (s : State) : Word := truncTo w s.x

/-- Y as a `w`-bit value: `YL` or `Y` (R12). -/
def yAt (w : Width) (s : State) : Word := truncTo w s.y

/-- `C` after a `w`-bit value is written to the accumulator: an 8-bit write leaves `B` unchanged (R11, R30). -/
def mergeAcc (w : Width) (old v : Word) : Word :=
  match w with
  | .w8 => joinBytes (highByte old) (lowByte v)
  | .w16 => v

/-- A `w`-bit value written to the accumulator, `B` unchanged at 8 bits (R11). -/
def setAcc (w : Width) (v : Word) (s : State) : State := { s with c := mergeAcc w s.c v }

/-- A `w`-bit value written to X; at 8 bits `XH` is $00 (R12, R29 I3). -/
def setX (w : Width) (v : Word) (s : State) : State := { s with x := truncTo w v }

/-- A `w`-bit value written to Y; at 8 bits `YH` is $00 (R12, R29 I3). -/
def setY (w : Width) (v : Word) (s : State) : State := { s with y := truncTo w v }

/-- `P` written whole, nothing else. -/
def setP (p : Byte) (s : State) : State := { s with p := p }

/-- One flag written, nothing else. -/
def setFlagOf (f : Flag) (b : Bool) (s : State) : State := { s with p := setFlag s.p f b }

/-- `SetNZ_w(v)` (spec/00_scope.md section 5). -/
def setNZOf (w : Width) (v : Word) (s : State) : State := { s with p := setNZ w v s.p }

/-- "PC advances by `len`", inside the program bank (R17, R81). -/
def advance (len : Nat) (s : State) : State := { s with pc := s.pc + BitVec.ofNat 16 len }

/-- `XH <- $00; YH <- $00` when `P.x = 1` (R29 I3; PRESUMED for native mode, G1, log 9: unsafe). -/
def clearIndexHigh (s : State) : State :=
  if getFlag s.p .x then { s with x := extendByte (lowByte s.x), y := extendByte (lowByte s.y) } else s

/-! ## The stack -/

/-- `00 : S`, the next free byte of the stack (R13, R140). -/
def stackAddr (sp : Word) : Addr := bankAddr 0x00 sp

/-- `S` after `Push8`: down by one, inside page 1 in emulation mode (R140). -/
def pushPointer (e : Bool) (sp : Word) : Word :=
  if e then joinBytes 0x01 (lowByte sp - 1) else sp - 1

/-- `S` before the read of `Pull8`: up by one, inside page 1 in emulation mode (R142). -/
def pullPointer (e : Bool) (sp : Word) : Word :=
  if e then joinBytes 0x01 (lowByte sp + 1) else sp + 1

/-- `Push8(v)` (R140). -/
def push8 (v : Byte) (s : State) : State :=
  { s.write (stackAddr s.sp) v with sp := pushPointer s.e s.sp }

/-- `Push16(v)`, high byte first (R143). -/
def push16 (v : Word) (s : State) : State := push8 (lowByte v) (push8 (highByte v) s)

/-- A push of a `w`-bit register: `Push8` or `Push16` (R145). -/
def pushAt (w : Width) (v : Word) (s : State) : State :=
  match w with
  | .w8 => push8 (lowByte v) s
  | .w16 => push16 v s

/-- `Pull8()`: the byte, and the state with `S` moved up (R142). -/
def pull8 (s : State) : Byte × State :=
  let sp := pullPointer s.e s.sp
  (s.read (stackAddr sp), { s with sp := sp })

/-- `Pull16()`, low byte first (R143). -/
def pull16 (s : State) : Word × State :=
  let low := pull8 s
  let high := pull8 low.2
  (joinBytes high.1 low.1, high.2)

/-- A pull of a `w`-bit register: `Pull8` or `Pull16` (R145). -/
def pullAt (w : Width) (s : State) : Word × State :=
  match w with
  | .w8 => (extendByte (pull8 s).1, (pull8 s).2)
  | .w16 => pull16 s

/-- `Push8n(v)`: the 16-bit stack pointer in both modes (R141; D3, DESIGN CHOICE of the spec, log 16: unsafe). -/
def push8n (v : Byte) (s : State) : State :=
  { s.write (stackAddr s.sp) v with sp := s.sp - 1 }

/-- `Push16n(v)` (R141). -/
def push16n (v : Word) (s : State) : State := push8n (lowByte v) (push8n (highByte v) s)

/-- `Pull8n()` (R141). -/
def pull8n (s : State) : Byte × State :=
  (s.read (stackAddr (s.sp + 1)), { s with sp := s.sp + 1 })

/-- `Pull16n()` (R141). -/
def pull16n (s : State) : Word × State :=
  let low := pull8n s
  let high := pull8n low.2
  (joinBytes high.1 low.1, high.2)

/-- `EndStackN()`: `SH <- $01` in emulation mode (R141). -/
def endStackN (s : State) : State :=
  if s.e then { s with sp := joinBytes 0x01 (lowByte s.sp) } else s

/-! ## Instruction bytes -/

/-- The address of byte `n` of the instruction at `PBR:PC`, inside the program bank (R17, R81). -/
def fetchAddr (s : State) (n : Nat) : Addr := bankAddr s.pbr (s.pc + BitVec.ofNat 16 n)

/-- The operand byte `n` of an instruction that fetches it after some of its pushes (JSL's `o3`, the `o2` of JSR
(abs,X): R64, R69, R81): the byte the decoder read, unless those pushes, which lead from `s` to `t`, changed memory at
its address; then the byte that is there now. DEDUCED form, log 19: safe, it is what the spec describes. -/
def lateFetch (s t : State) (n : Nat) (decoded : Byte) : Byte :=
  if t.read (fetchAddr s n) = s.read (fetchAddr s n) then decoded else t.read (fetchAddr s n)

/-! ## Taking an interrupt and returning from it -/

/-- The five sources of `InterruptEntry` (R300, R310). -/
inductive Source where
  | brk
  | cop
  | irq
  | nmi
  | abort
  deriving DecidableEq, Repr

/-- The vectors, all in bank 0 (R301). -/
def vector (src : Source) (e : Bool) : Word :=
  match src, e with
  | .cop, true => 0xFFF4
  | .cop, false => 0xFFE4
  | .brk, true => 0xFFFE
  | .brk, false => 0xFFE6
  | .abort, true => 0xFFF8
  | .abort, false => 0xFFE8
  | .nmi, true => 0xFFFA
  | .nmi, false => 0xFFEA
  | .irq, true => 0xFFFE
  | .irq, false => 0xFFEE

/-- The RESET vector (R301, R342). -/
def resetVector : Word := 0xFFFC

/-- A 16-bit value at `a` and the next address in the same bank, low byte first (R50, R65). -/
def State.readWord (s : State) (a : Addr) : Word := joinBytes (s.read (inc16 a)) (s.read a)

/-- `StackedP(src)` (R311): in native mode `P` as it is; in emulation mode bit 5 is 1 and bit 4 tells BRK and COP from
the hardware sources. The 1 for COP is DEDUCED by the spec (N24, log 21: unsafe). -/
def stackedP (src : Source) (e : Bool) (p : Byte) : Byte :=
  if e then
    match src with
    | .brk | .cop => p ||| 0x30
    | .irq | .nmi | .abort => (p ||| 0x20) &&& 0xEF
  else p

/-- The pushes of `InterruptEntry` (R310): PBR in native mode only, then the return address, then the status byte. -/
def pushFrame (src : Source) (ret : Word) (s : State) : State :=
  push8 (stackedP src s.e s.p) (push16 ret (if s.e then s else push8 s.pbr s))

/-- DBR is cleared by an entry in emulation mode when EMU_INT_CLEARS_DBR is set (R310, D11, log 14). -/
def clearDbrOnEntry (s : State) : State :=
  if s.e && s.params.emuIntClearsDbr then { s with dbr := 0x00 } else s

/-- What follows the pushes (R310): `i` set, `d` cleared, bank 0, the handler's address from the vector, the source's
own latch cleared, running. -/
def enterHandler (src : Source) (s : State) : State :=
  { s with
    p := setFlag (setFlag s.p .i true) .d false
    pbr := 0x00
    pc := s.readWord (bankAddr 0x00 (vector src s.e))
    nmiPending := if src = .nmi then false else s.nmiPending
    abortPending := if src = .abort then false else s.abortPending
    run := .running }

/-- `InterruptEntry(src, ret)` (R310): taking an exception, software or hardware. -/
def interruptEntry (src : Source) (ret : Word) (s : State) : State :=
  enterHandler src (clearDbrOnEntry (pushFrame src ret s))

/-- `P` loaded from a pulled byte by PLP and RTI (R268, R225): in emulation mode bits 5 and 4 are ignored and stay 1;
in native mode all eight bits, and an `x` of 1 clears XH and YH. -/
def loadP (v : Byte) (s : State) : State :=
  if s.e then { s with p := v ||| 0x30 } else clearIndexHigh { s with p := v }

/-- The return from an interrupt (R225, R314): P, PC, and in native mode PBR, pulled in this order. -/
def returnFromInterrupt (s : State) : State :=
  let status := pull8 s
  let ret := pull16 (loadP status.1 status.2)
  let t := { ret.2 with pc := ret.1 }
  if t.e then t
  else
    let bank := pull8 t
    { bank.2 with pbr := bank.1 }

/-! ## Reset -/

/-- `Reset()` (R341). `C`, `XL`, `YL`, `SL`, `n`, `v`, `z`, `c` and memory keep their values (R343, R344, D10; log 33). -/
def resetEntry (s : State) : State :=
  { s with
    e := true
    p := setFlag (setFlag (setFlag (setFlag s.p .m true) .x true) .i true) .d false
    x := extendByte (lowByte s.x)
    y := extendByte (lowByte s.y)
    sp := joinBytes 0x01 (lowByte s.sp)
    d := 0x0000
    dbr := 0x00
    pbr := 0x00
    pc := s.readWord (bankAddr 0x00 resetVector)
    run := .running
    nmiPending := false
    abortPending := false }

end Sys2Proof.Machine
end

