-- ==== Sys2Proof/Machine/Operands.lean ====
section
/-! DEFINITION. Every operand form of the spec (40_addressing_modes.md R111 to R138): effective addresses, data read
and written through them, and the read-modify-write sequence. -/

namespace Sys2Proof.Machine

/-- An effective address (R111): where the low byte and the high byte of the datum are. -/
structure EA where
  a0 : Addr
  a1 : Addr
  deriving DecidableEq, Repr

/-- The page-wrap condition of R112: emulation mode with `DL = 0`. -/
def pageWrap (s : State) : Bool := s.e && decide (lowByte s.d = 0x00)

/-- `DP(k)` (R112): the bank-0 address of direct location `k`. -/
def dp (s : State) (k : Nat) : Addr :=
  if pageWrap s then bankAddr 0x00 (joinBytes (highByte s.d) (BitVec.ofNat 8 k))
  else bankAddr 0x00 (s.d + BitVec.ofNat 16 k)

/-- `DPnext(k)` (R112): the byte after direct location `k`. -/
def dpNext (s : State) (k : Nat) : Addr := if pageWrap s then dp s (k + 1) else inc16 (dp s k)

/-- `DBR * 65536 + AA + index`, modulo 2^24 (R118, R123, R137; D3, log 16). -/
def indexedAddr (base : Addr) (index : Word) : Addr := base + index.setWidth 24

/-- A datum at a 24-bit address: its high byte is at the next 24-bit address (R137). -/
def linear (a : Addr) : EA := { a0 := a, a1 := inc24 a }

/-- A datum in bank 0: its high byte is at the next address of the bank (R65, R137). -/
def inBank (a : Addr) : EA := { a0 := a, a1 := inc16 a }

/-- The 16-bit pointer at direct location `k` (R117 to R119). -/
def dpPointer (s : State) (k : Nat) : Word := joinBytes (s.read (dpNext s k)) (s.read (dp s k))

/-- The 24-bit pointer of `[dir]` and `[dir],Y`, which does not wrap in the page (R112, R120). -/
def dpLongPointer (s : State) (o : Byte) : Addr :=
  let p0 := dp s o.toNat
  bankAddr (s.read (inc16 (inc16 p0))) (s.readWord p0)

/-- `00 : (S + SO)`, 16 bits in both modes (R127). -/
def stackRelative (s : State) (o : Byte) : Addr := bankAddr 0x00 (s.sp + extendByte o)

/-- The addressing modes that give a memory operand (R110), with the operand bytes of the instruction. -/
inductive Mode where
  | dir (o : Byte)
  | dirX (o : Byte)
  | dirY (o : Byte)
  | dirInd (o : Byte)
  | dirIndY (o : Byte)
  | dirXInd (o : Byte)
  | dirLong (o : Byte)
  | dirLongY (o : Byte)
  | abs (a : Word)
  | absX (a : Word)
  | absY (a : Word)
  | long (l : Addr)
  | longX (l : Addr)
  | stk (o : Byte)
  | stkIndY (o : Byte)
  deriving DecidableEq, Repr

/-- R114. -/
def eaDir (o : Byte) (s : State) : EA := { a0 := dp s o.toNat, a1 := dpNext s o.toNat }

/-- R115, with the full 16-bit X. -/
def eaDirX (o : Byte) (s : State) : EA :=
  { a0 := dp s (o.toNat + s.x.toNat), a1 := dpNext s (o.toNat + s.x.toNat) }

/-- R116. -/
def eaDirY (o : Byte) (s : State) : EA :=
  { a0 := dp s (o.toNat + s.y.toNat), a1 := dpNext s (o.toNat + s.y.toNat) }

/-- R117. -/
def eaDirInd (o : Byte) (s : State) : EA := linear (bankAddr s.dbr (dpPointer s o.toNat))

/-- R118: Y is added to the 24-bit address. -/
def eaDirIndY (o : Byte) (s : State) : EA :=
  linear (indexedAddr (bankAddr s.dbr (dpPointer s o.toNat)) s.y)

/-- R119: X is added before the pointer is read. -/
def eaDirXInd (o : Byte) (s : State) : EA := linear (bankAddr s.dbr (dpPointer s (o.toNat + s.x.toNat)))

/-- R120. -/
def eaDirLong (o : Byte) (s : State) : EA := linear (dpLongPointer s o)

/-- R121. -/
def eaDirLongY (o : Byte) (s : State) : EA := linear (indexedAddr (dpLongPointer s o) s.y)

/-- R122. -/
def eaAbs (a : Word) (s : State) : EA := linear (bankAddr s.dbr a)

/-- R123. -/
def eaAbsX (a : Word) (s : State) : EA := linear (indexedAddr (bankAddr s.dbr a) s.x)

/-- R124. -/
def eaAbsY (a : Word) (s : State) : EA := linear (indexedAddr (bankAddr s.dbr a) s.y)

/-- R125. -/
def eaLong (l : Addr) : EA := linear l

/-- R126. -/
def eaLongX (l : Addr) (s : State) : EA := linear (indexedAddr l s.x)

/-- R127. -/
def eaStk (o : Byte) (s : State) : EA := inBank (stackRelative s o)

/-- R128. -/
def eaStkIndY (o : Byte) (s : State) : EA :=
  linear (indexedAddr (bankAddr s.dbr (s.readWord (stackRelative s o))) s.y)

/-- The effective address of a mode. -/
def Mode.ea (mode : Mode) (s : State) : EA :=
  match mode with
  | .dir o => eaDir o s
  | .dirX o => eaDirX o s
  | .dirY o => eaDirY o s
  | .dirInd o => eaDirInd o s
  | .dirIndY o => eaDirIndY o s
  | .dirXInd o => eaDirXInd o s
  | .dirLong o => eaDirLong o s
  | .dirLongY o => eaDirLongY o s
  | .abs a => eaAbs a s
  | .absX a => eaAbsX a s
  | .absY a => eaAbsY a s
  | .long l => eaLong l
  | .longX l => eaLongX l s
  | .stk o => eaStk o s
  | .stkIndY o => eaStkIndY o s

/-- The length of an instruction with a memory operand (R82). -/
def Mode.length : Mode → Nat
  | .abs _ | .absX _ | .absY _ => 3
  | .long _ | .longX _ => 4
  | .dir _ | .dirX _ | .dirY _ | .dirInd _ | .dirIndY _ | .dirXInd _ | .dirLong _ | .dirLongY _
  | .stk _ | .stkIndY _ => 2

/-- The addresses of a `w`-bit datum, low byte first (R59, R60). -/
def datumBytes (ea : EA) : Width → List Addr
  | .w8 => [ea.a0]
  | .w16 => [ea.a0, ea.a1]

/-- `ReadData(ea, w)` (R111): `a1` is not accessed at 8 bits. -/
def readData (ea : EA) (w : Width) (s : State) : Word :=
  match w with
  | .w8 => extendByte (s.read ea.a0)
  | .w16 => joinBytes (s.read ea.a1) (s.read ea.a0)

/-- `WriteData(ea, w, v)` (R111): low byte first. -/
def writeData (ea : EA) (w : Width) (v : Word) (s : State) : State :=
  match w with
  | .w8 => s.write ea.a0 (lowByte v)
  | .w16 => (s.write ea.a0 (lowByte v)).write ea.a1 (highByte v)

/-- The writes of `RMW(ea, w, f)` (R138): high byte first. -/
def writeBack (ea : EA) (w : Width) (v : Word) (s : State) : State :=
  match w with
  | .w8 => s.write ea.a0 (lowByte v)
  | .w16 => (s.write ea.a1 (highByte v)).write ea.a0 (lowByte v)

/-- An operand that is read: an immediate of 8 or 16 bits by the width flag (R83, R113), or a memory operand. -/
inductive Operand where
  | imm (v : Word)
  | mem (mode : Mode)
  deriving DecidableEq, Repr

/-- The value of an operand at a width. An immediate is carried as a word whose high byte is not used at 8 bits
(log 17). -/
def Operand.value (o : Operand) (w : Width) (s : State) : Word :=
  match o with
  | .imm v => truncTo w v
  | .mem mode => readData (mode.ea s) w s

/-- The length of the instruction with this operand (R82, R83). -/
def Operand.length (o : Operand) (w : Width) : Nat :=
  match o with
  | .imm _ => 1 + widthBytes w
  | .mem mode => mode.length

/-- An instruction that reads a `w`-bit operand, does `op` with it and goes on to the next instruction. -/
def readInstr (w : Width) (op : Width → Word → State → State) (o : Operand) (s : State) : Result :=
  .next (advance (o.length w) (op w (o.value w s) s))

/-- An instruction that stores a `w`-bit value (R243 to R246). -/
def storeInstr (w : Width) (v : Word) (mode : Mode) (s : State) : Result :=
  .next (advance mode.length (writeData (mode.ea s) w v s))

/-- The memory form of a read-modify-write instruction (R138, R180). -/
def modifyMemory (f : Modify) (mode : Mode) (s : State) : Result :=
  let ea := mode.ea s
  let r := f (wm s) s.p (readData ea (wm s) s)
  .next (advance mode.length (setP r.2 (writeBack ea (wm s) r.1 s)))

/-- The accumulator form (R129, R180): at 8 bits `B` is unchanged. -/
def modifyAccumulator (f : Modify) (s : State) : Result :=
  let r := f (wm s) s.p (accAt (wm s) s)
  .next (advance 1 (setP r.2 (setAcc (wm s) r.1 s)))

end Sys2Proof.Machine
end

