-- ==== Sys2Proof/Machine/Arith.lean ====
section
/-! DEFINITION. ADC, SBC, CMP, CPX, CPY (spec/41_arithmetic_compare.md R150 to R155). -/

namespace Sys2Proof.Machine

/-- ADC (R150): the accumulator plus the operand plus the carry, binary or decimal by the flag d. -/
def adc (w : Width) (b : Word) (s : State) : State :=
  let r := adcResult s.params w (accAt w s) b s.p
  setP (arithFlags w r s.p) (setAcc w r.value s)

/-- SBC (R151): the accumulator minus the operand minus the borrow, binary or decimal by the flag d. -/
def sbc (w : Width) (b : Word) (s : State) : State :=
  let r := sbcResult s.params w (accAt w s) b s.p
  setP (arithFlags w r s.p) (setAcc w r.value s)

/-- CMP (R153). -/
def cmp (w : Width) (b : Word) (s : State) : State := setP (compareFlags w (accAt w s) b s.p) s

/-- CPX (R154). -/
def cpx (w : Width) (b : Word) (s : State) : State := setP (compareFlags w (xAt w s) b s.p) s

/-- CPY (R155). -/
def cpy (w : Width) (b : Word) (s : State) : State := setP (compareFlags w (yAt w s) b s.p) s

/-- ADC (dir,X): opcode $61 (R150, R119). -/
def execAdcDirXInd (o : Byte) (s : State) : Result := readInstr (wm s) adc (.mem (.dirXInd o)) s

/-- ADC stk,S: opcode $63 (R150, R127). -/
def execAdcStk (o : Byte) (s : State) : Result := readInstr (wm s) adc (.mem (.stk o)) s

/-- ADC dir: opcode $65 (R150, R114). -/
def execAdcDir (o : Byte) (s : State) : Result := readInstr (wm s) adc (.mem (.dir o)) s

/-- ADC [dir]: opcode $67 (R150, R120). -/
def execAdcDirLong (o : Byte) (s : State) : Result := readInstr (wm s) adc (.mem (.dirLong o)) s

/-- ADC imm_m: opcode $69 (R150, R113). -/
def execAdcImm (v : Word) (s : State) : Result := readInstr (wm s) adc (.imm v) s

/-- ADC abs: opcode $6D (R150, R122). -/
def execAdcAbs (a : Word) (s : State) : Result := readInstr (wm s) adc (.mem (.abs a)) s

/-- ADC long: opcode $6F (R150, R125). -/
def execAdcLong (l : Addr) (s : State) : Result := readInstr (wm s) adc (.mem (.long l)) s

/-- ADC (dir),Y: opcode $71 (R150, R118). -/
def execAdcDirIndY (o : Byte) (s : State) : Result := readInstr (wm s) adc (.mem (.dirIndY o)) s

/-- ADC (dir): opcode $72 (R150, R117). -/
def execAdcDirInd (o : Byte) (s : State) : Result := readInstr (wm s) adc (.mem (.dirInd o)) s

/-- ADC (stk,S),Y: opcode $73 (R150, R128). -/
def execAdcStkIndY (o : Byte) (s : State) : Result := readInstr (wm s) adc (.mem (.stkIndY o)) s

/-- ADC dir,X: opcode $75 (R150, R115). -/
def execAdcDirX (o : Byte) (s : State) : Result := readInstr (wm s) adc (.mem (.dirX o)) s

/-- ADC [dir],Y: opcode $77 (R150, R121). -/
def execAdcDirLongY (o : Byte) (s : State) : Result := readInstr (wm s) adc (.mem (.dirLongY o)) s

/-- ADC abs,Y: opcode $79 (R150, R124). -/
def execAdcAbsY (a : Word) (s : State) : Result := readInstr (wm s) adc (.mem (.absY a)) s

/-- ADC abs,X: opcode $7D (R150, R123). -/
def execAdcAbsX (a : Word) (s : State) : Result := readInstr (wm s) adc (.mem (.absX a)) s

/-- ADC long,X: opcode $7F (R150, R126). -/
def execAdcLongX (l : Addr) (s : State) : Result := readInstr (wm s) adc (.mem (.longX l)) s

/-- SBC (dir,X): opcode $E1 (R151, R119). -/
def execSbcDirXInd (o : Byte) (s : State) : Result := readInstr (wm s) sbc (.mem (.dirXInd o)) s

/-- SBC stk,S: opcode $E3 (R151, R127). -/
def execSbcStk (o : Byte) (s : State) : Result := readInstr (wm s) sbc (.mem (.stk o)) s

/-- SBC dir: opcode $E5 (R151, R114). -/
def execSbcDir (o : Byte) (s : State) : Result := readInstr (wm s) sbc (.mem (.dir o)) s

/-- SBC [dir]: opcode $E7 (R151, R120). -/
def execSbcDirLong (o : Byte) (s : State) : Result := readInstr (wm s) sbc (.mem (.dirLong o)) s

/-- SBC imm_m: opcode $E9 (R151, R113). -/
def execSbcImm (v : Word) (s : State) : Result := readInstr (wm s) sbc (.imm v) s

/-- SBC abs: opcode $ED (R151, R122). -/
def execSbcAbs (a : Word) (s : State) : Result := readInstr (wm s) sbc (.mem (.abs a)) s

/-- SBC long: opcode $EF (R151, R125). -/
def execSbcLong (l : Addr) (s : State) : Result := readInstr (wm s) sbc (.mem (.long l)) s

/-- SBC (dir),Y: opcode $F1 (R151, R118). -/
def execSbcDirIndY (o : Byte) (s : State) : Result := readInstr (wm s) sbc (.mem (.dirIndY o)) s

/-- SBC (dir): opcode $F2 (R151, R117). -/
def execSbcDirInd (o : Byte) (s : State) : Result := readInstr (wm s) sbc (.mem (.dirInd o)) s

/-- SBC (stk,S),Y: opcode $F3 (R151, R128). -/
def execSbcStkIndY (o : Byte) (s : State) : Result := readInstr (wm s) sbc (.mem (.stkIndY o)) s

/-- SBC dir,X: opcode $F5 (R151, R115). -/
def execSbcDirX (o : Byte) (s : State) : Result := readInstr (wm s) sbc (.mem (.dirX o)) s

/-- SBC [dir],Y: opcode $F7 (R151, R121). -/
def execSbcDirLongY (o : Byte) (s : State) : Result := readInstr (wm s) sbc (.mem (.dirLongY o)) s

/-- SBC abs,Y: opcode $F9 (R151, R124). -/
def execSbcAbsY (a : Word) (s : State) : Result := readInstr (wm s) sbc (.mem (.absY a)) s

/-- SBC abs,X: opcode $FD (R151, R123). -/
def execSbcAbsX (a : Word) (s : State) : Result := readInstr (wm s) sbc (.mem (.absX a)) s

/-- SBC long,X: opcode $FF (R151, R126). -/
def execSbcLongX (l : Addr) (s : State) : Result := readInstr (wm s) sbc (.mem (.longX l)) s

/-- CMP (dir,X): opcode $C1 (R153, R119). -/
def execCmpDirXInd (o : Byte) (s : State) : Result := readInstr (wm s) cmp (.mem (.dirXInd o)) s

/-- CMP stk,S: opcode $C3 (R153, R127). -/
def execCmpStk (o : Byte) (s : State) : Result := readInstr (wm s) cmp (.mem (.stk o)) s

/-- CMP dir: opcode $C5 (R153, R114). -/
def execCmpDir (o : Byte) (s : State) : Result := readInstr (wm s) cmp (.mem (.dir o)) s

/-- CMP [dir]: opcode $C7 (R153, R120). -/
def execCmpDirLong (o : Byte) (s : State) : Result := readInstr (wm s) cmp (.mem (.dirLong o)) s

/-- CMP imm_m: opcode $C9 (R153, R113). -/
def execCmpImm (v : Word) (s : State) : Result := readInstr (wm s) cmp (.imm v) s

/-- CMP abs: opcode $CD (R153, R122). -/
def execCmpAbs (a : Word) (s : State) : Result := readInstr (wm s) cmp (.mem (.abs a)) s

/-- CMP long: opcode $CF (R153, R125). -/
def execCmpLong (l : Addr) (s : State) : Result := readInstr (wm s) cmp (.mem (.long l)) s

/-- CMP (dir),Y: opcode $D1 (R153, R118). -/
def execCmpDirIndY (o : Byte) (s : State) : Result := readInstr (wm s) cmp (.mem (.dirIndY o)) s

/-- CMP (dir): opcode $D2 (R153, R117). -/
def execCmpDirInd (o : Byte) (s : State) : Result := readInstr (wm s) cmp (.mem (.dirInd o)) s

/-- CMP (stk,S),Y: opcode $D3 (R153, R128). -/
def execCmpStkIndY (o : Byte) (s : State) : Result := readInstr (wm s) cmp (.mem (.stkIndY o)) s

/-- CMP dir,X: opcode $D5 (R153, R115). -/
def execCmpDirX (o : Byte) (s : State) : Result := readInstr (wm s) cmp (.mem (.dirX o)) s

/-- CMP [dir],Y: opcode $D7 (R153, R121). -/
def execCmpDirLongY (o : Byte) (s : State) : Result := readInstr (wm s) cmp (.mem (.dirLongY o)) s

/-- CMP abs,Y: opcode $D9 (R153, R124). -/
def execCmpAbsY (a : Word) (s : State) : Result := readInstr (wm s) cmp (.mem (.absY a)) s

/-- CMP abs,X: opcode $DD (R153, R123). -/
def execCmpAbsX (a : Word) (s : State) : Result := readInstr (wm s) cmp (.mem (.absX a)) s

/-- CMP long,X: opcode $DF (R153, R126). -/
def execCmpLongX (l : Addr) (s : State) : Result := readInstr (wm s) cmp (.mem (.longX l)) s

/-- CPX imm_x: opcode $E0 (R154, R113). -/
def execCpxImm (v : Word) (s : State) : Result := readInstr (wx s) cpx (.imm v) s

/-- CPX dir: opcode $E4 (R154, R114). -/
def execCpxDir (o : Byte) (s : State) : Result := readInstr (wx s) cpx (.mem (.dir o)) s

/-- CPX abs: opcode $EC (R154, R122). -/
def execCpxAbs (a : Word) (s : State) : Result := readInstr (wx s) cpx (.mem (.abs a)) s

/-- CPY imm_x: opcode $C0 (R155, R113). -/
def execCpyImm (v : Word) (s : State) : Result := readInstr (wx s) cpy (.imm v) s

/-- CPY dir: opcode $C4 (R155, R114). -/
def execCpyDir (o : Byte) (s : State) : Result := readInstr (wx s) cpy (.mem (.dir o)) s

/-- CPY abs: opcode $CC (R155, R122). -/
def execCpyAbs (a : Word) (s : State) : Result := readInstr (wx s) cpy (.mem (.abs a)) s

end Sys2Proof.Machine
end

