-- ==== Sys2Proof/Machine/Branch.lean ====
section
/-! DEFINITION. The branches (spec/44_branch.md R185 to R195). -/

namespace Sys2Proof.Machine

/-- The target of an 8-bit branch, in the program bank (R131, R88). -/
def branchTarget (pc : Word) (r : Byte) : Word := pc + 2 + signExtendByte r

/-- The common behaviour of the nine 8-bit branches (R185). -/
def branch (cond : Bool) (r : Byte) (s : State) : Result :=
  .next { s with pc := if cond then branchTarget s.pc r else s.pc + 2 }

/-- BCC rel8: opcode $90 (R186, R131). -/
def execBcc (r : Byte) (s : State) : Result := branch (!getFlag s.p .c) r s

/-- BCS rel8: opcode $B0 (R187, R131). -/
def execBcs (r : Byte) (s : State) : Result := branch (getFlag s.p .c) r s

/-- BEQ rel8: opcode $F0 (R188, R131). -/
def execBeq (r : Byte) (s : State) : Result := branch (getFlag s.p .z) r s

/-- BMI rel8: opcode $30 (R189, R131). -/
def execBmi (r : Byte) (s : State) : Result := branch (getFlag s.p .n) r s

/-- BNE rel8: opcode $D0 (R190, R131). -/
def execBne (r : Byte) (s : State) : Result := branch (!getFlag s.p .z) r s

/-- BPL rel8: opcode $10 (R191, R131). -/
def execBpl (r : Byte) (s : State) : Result := branch (!getFlag s.p .n) r s

/-- BRA rel8: opcode $80 (R192, R131). -/
def execBra (r : Byte) (s : State) : Result := branch true r s

/-- BRL rel16: opcode $82 (R193, R132). -/
def execBrl (r : Word) (s : State) : Result := .next { s with pc := s.pc + 3 + r }

/-- BVC rel8: opcode $50 (R194, R131). -/
def execBvc (r : Byte) (s : State) : Result := branch (!getFlag s.p .v) r s

/-- BVS rel8: opcode $70 (R195, R131). -/
def execBvs (r : Byte) (s : State) : Result := branch (getFlag s.p .v) r s

end Sys2Proof.Machine
end

