-- ==== Sys2Proof/Machine/FlagOps.lean ====
section
/-! DEFINITION. CLC, CLD, CLI, CLV, SEC, SED, SEI, REP, SEP, XCE (spec/45_flags_mode.md R200 to R209). A change of i
takes effect at the next step boundary (R306, N14: DEDUCED, log 22). -/

namespace Sys2Proof.Machine

/-- The seven instructions that write one flag. -/
def writeFlag (f : Flag) (b : Bool) (s : State) : Result := .next (advance 1 (setFlagOf f b s))

/-- The mask of REP and SEP: in emulation mode bits 5 and 4 cannot be changed (R207, R208). -/
def widthSafeMask (e : Bool) (mask : Byte) : Byte := if e then mask &&& 0xCF else mask

/-- What emulation mode forces (R31, R209): m and x 1, XH and YH $00, SH $01. -/
def forceEmulation (s : State) : State :=
  { s with
    p := setFlag (setFlag s.p .m true) .x true
    x := extendByte (lowByte s.x)
    y := extendByte (lowByte s.y)
    sp := joinBytes 0x01 (lowByte s.sp) }

/-- The exchange of XCE (R209): e and P.c. -/
def exchangeCE (s : State) : State := { s with e := getFlag s.p .c, p := setFlag s.p .c s.e }

/-- CLC: opcode $18 (R200, R130). -/
def execClc (s : State) : Result := writeFlag .c false s

/-- CLD: opcode $D8 (R201, R130). -/
def execCld (s : State) : Result := writeFlag .d false s

/-- CLI: opcode $58 (R202, R130). -/
def execCli (s : State) : Result := writeFlag .i false s

/-- CLV: opcode $B8 (R203, R130). -/
def execClv (s : State) : Result := writeFlag .v false s

/-- SEC: opcode $38 (R204, R130). -/
def execSec (s : State) : Result := writeFlag .c true s

/-- SED: opcode $F8 (R205, R130). -/
def execSed (s : State) : Result := writeFlag .d true s

/-- SEI: opcode $78 (R206, R130). -/
def execSei (s : State) : Result := writeFlag .i true s

/-- REP #imm8: opcode $C2 (R207, R113). -/
def execRep (mask : Byte) (s : State) : Result := .next (advance 2 { s with p := s.p &&& ~~~widthSafeMask s.e mask })

/-- SEP #imm8: opcode $E2 (R208, R113). -/
def execSep (mask : Byte) (s : State) : Result :=
  .next (advance 2 (clearIndexHigh { s with p := s.p ||| widthSafeMask s.e mask }))

/-- XCE: opcode $FB (R209, R130). -/
def execXce (s : State) : Result :=
  .next (advance 1 (if getFlag s.p .c then forceEmulation (exchangeCE s) else exchangeCE s))

end Sys2Proof.Machine
end

