-- ==== Sys2Proof/Machine/Flow.lean ====
section
/-! DEFINITION. JMP, JML, JSR, JSL, RTS, RTL, NOP, WDM, BRK, COP, RTI, WAI, STP (spec/46_flow_system.md R215 to
R227). -/

namespace Sys2Proof.Machine

/-- The jump to a 16-bit address of the program bank (R215). -/
def jumpTo (target : Word) (s : State) : State := { s with pc := target }

/-- The jump to a 24-bit address (R216). -/
def jumpFar (bank : Byte) (target : Word) (s : State) : State := { s with pbr := bank, pc := target }

/-- The address of a pointer in the table of (abs,X), in the program bank (R134; D2, log 15: unsafe). -/
def tableAddr (s : State) (a : Word) : Addr := bankAddr s.pbr (a + s.x)

/-- JMP abs: opcode $4C (R215, R122). -/
def execJmpAbs (a : Word) (s : State) : Result := .next (jumpTo a s)

/-- JMP (abs): opcode $6C (R215, R133). -/
def execJmpAbsInd (a : Word) (s : State) : Result := .next (jumpTo (s.readWord (bankAddr 0x00 a)) s)

/-- JMP (abs,X): opcode $7C (R215, R134). -/
def execJmpAbsXInd (a : Word) (s : State) : Result := .next (jumpTo (s.readWord (tableAddr s a)) s)

/-- JML long: opcode $5C (R216, R125). -/
def execJmlLong (l : Addr) (s : State) : Result := .next (jumpFar (bankOf l) (offsetOf l) s)

/-- JML [abs]: opcode $DC (R216, R135). -/
def execJmlAbsLong (a : Word) (s : State) : Result :=
  let p0 := bankAddr 0x00 a
  .next (jumpFar (s.read (inc16 (inc16 p0))) (s.readWord p0) s)

/-- JSR abs: opcode $20 (R217, R122). -/
def execJsrAbs (a : Word) (s : State) : Result := .next (jumpTo a (push16 (s.pc + 2) s))

/-- JSR (abs,X): opcode $FC (R217, R134). -/
def execJsrAbsXInd (a : Word) (s : State) : Result :=
  let t := push16n (s.pc + 2) s
  let table := joinBytes (lateFetch s t 2 (highByte a)) (lowByte a)
  .next (endStackN (jumpTo (t.readWord (tableAddr t table)) t))

/-- JSL long: opcode $22 (R218, R125). -/
def execJsl (l : Addr) (s : State) : Result :=
  let t := push8n s.pbr s
  let bank := lateFetch s t 3 (bankOf l)
  .next (endStackN (jumpFar bank (offsetOf l) (push16n (s.pc + 3) t)))

/-- RTS: opcode $60 (R219, R130). -/
def execRts (s : State) : Result := .next (jumpTo ((pull16 s).1 + 1) (pull16 s).2)

/-- RTL: opcode $6B (R220, R130). -/
def execRtl (s : State) : Result :=
  let ret := pull16n s
  let bank := pull8n ret.2
  .next (endStackN (jumpFar bank.1 (ret.1 + 1) bank.2))

/-- NOP: opcode $EA (R221, R130). -/
def execNop (s : State) : Result := .next (advance 1 s)

/-- WDM #imm8: opcode $42 (R222, R113). -/
def execWdm (_sig : Byte) (s : State) : Result := .next (advance 2 s)

/-- BRK #imm8: opcode $00 (R223, R113). -/
def execBrk (_sig : Byte) (s : State) : Result := .next (interruptEntry .brk (s.pc + 2) s)

/-- COP #imm8: opcode $02 (R224, R113). -/
def execCop (_sig : Byte) (s : State) : Result := .next (interruptEntry .cop (s.pc + 2) s)

/-- RTI: opcode $40 (R225, R130). -/
def execRti (s : State) : Result := .next (returnFromInterrupt s)

/-- WAI: opcode $CB (R226, R130). -/
def execWai (s : State) : Result := .next { advance 1 s with run := .waiting }

/-- STP: opcode $DB (R227, R130). -/
def execStp (s : State) : Result := .next { advance 1 s with run := .stopped }

end Sys2Proof.Machine
end

