-- ==== Sys2Proof/Machine/LoadStore.lean ====
section
/-! DEFINITION. LDA, LDX, LDY, STA, STX, STY, STZ, MVN, MVP (spec/47_load_store_move.md R240 to R249). -/

namespace Sys2Proof.Machine

/-- LDA (R240). -/
def lda (w : Width) (v : Word) (s : State) : State := setNZOf w v (setAcc w v s)

/-- LDX (R241). -/
def ldx (w : Width) (v : Word) (s : State) : State := setNZOf w v (setX w v s)

/-- LDY (R242). -/
def ldy (w : Width) (v : Word) (s : State) : State := setNZOf w v (setY w v s)

/-- DBR after a byte of a block move, when BLOCK_MOVE_SETS_DBR is set (R249, D14, G4; PRESUMED, log 11: unsafe). -/
def setMoveBank (dst : Byte) (s : State) : State :=
  if s.params.blockMoveSetsDbr then { s with dbr := dst } else s

/-- The count of a block move: C is the full 16 bits; after the last byte it is $FFFF and the PC advances (R249; the
final C is DEDUCED, log 26). -/
def countMove (s : State) : State :=
  { s with c := s.c - 1, pc := if s.c - 1 = 0xFFFF then s.pc + 3 else s.pc }

/-- One byte of MVN (`step` 1) or MVP (`step` -1), one step of the machine (R249, R318). -/
def blockMove (step : Word) (dst src : Byte) (s : State) : Result :=
  let v := s.read (bankAddr src s.x)
  let t := s.write (bankAddr dst s.y) v
  .next (countMove (setMoveBank dst (setY (wx s) (s.y + step) (setX (wx s) (s.x + step) t))))

/-- LDA (dir,X): opcode $A1 (R240, R119). -/
def execLdaDirXInd (o : Byte) (s : State) : Result := readInstr (wm s) lda (.mem (.dirXInd o)) s

/-- LDA stk,S: opcode $A3 (R240, R127). -/
def execLdaStk (o : Byte) (s : State) : Result := readInstr (wm s) lda (.mem (.stk o)) s

/-- LDA dir: opcode $A5 (R240, R114). -/
def execLdaDir (o : Byte) (s : State) : Result := readInstr (wm s) lda (.mem (.dir o)) s

/-- LDA [dir]: opcode $A7 (R240, R120). -/
def execLdaDirLong (o : Byte) (s : State) : Result := readInstr (wm s) lda (.mem (.dirLong o)) s

/-- LDA imm_m: opcode $A9 (R240, R113). -/
def execLdaImm (v : Word) (s : State) : Result := readInstr (wm s) lda (.imm v) s

/-- LDA abs: opcode $AD (R240, R122). -/
def execLdaAbs (a : Word) (s : State) : Result := readInstr (wm s) lda (.mem (.abs a)) s

/-- LDA long: opcode $AF (R240, R125). -/
def execLdaLong (l : Addr) (s : State) : Result := readInstr (wm s) lda (.mem (.long l)) s

/-- LDA (dir),Y: opcode $B1 (R240, R118). -/
def execLdaDirIndY (o : Byte) (s : State) : Result := readInstr (wm s) lda (.mem (.dirIndY o)) s

/-- LDA (dir): opcode $B2 (R240, R117). -/
def execLdaDirInd (o : Byte) (s : State) : Result := readInstr (wm s) lda (.mem (.dirInd o)) s

/-- LDA (stk,S),Y: opcode $B3 (R240, R128). -/
def execLdaStkIndY (o : Byte) (s : State) : Result := readInstr (wm s) lda (.mem (.stkIndY o)) s

/-- LDA dir,X: opcode $B5 (R240, R115). -/
def execLdaDirX (o : Byte) (s : State) : Result := readInstr (wm s) lda (.mem (.dirX o)) s

/-- LDA [dir],Y: opcode $B7 (R240, R121). -/
def execLdaDirLongY (o : Byte) (s : State) : Result := readInstr (wm s) lda (.mem (.dirLongY o)) s

/-- LDA abs,Y: opcode $B9 (R240, R124). -/
def execLdaAbsY (a : Word) (s : State) : Result := readInstr (wm s) lda (.mem (.absY a)) s

/-- LDA abs,X: opcode $BD (R240, R123). -/
def execLdaAbsX (a : Word) (s : State) : Result := readInstr (wm s) lda (.mem (.absX a)) s

/-- LDA long,X: opcode $BF (R240, R126). -/
def execLdaLongX (l : Addr) (s : State) : Result := readInstr (wm s) lda (.mem (.longX l)) s

/-- LDX imm_x: opcode $A2 (R241, R113). -/
def execLdxImm (v : Word) (s : State) : Result := readInstr (wx s) ldx (.imm v) s

/-- LDX dir: opcode $A6 (R241, R114). -/
def execLdxDir (o : Byte) (s : State) : Result := readInstr (wx s) ldx (.mem (.dir o)) s

/-- LDX abs: opcode $AE (R241, R122). -/
def execLdxAbs (a : Word) (s : State) : Result := readInstr (wx s) ldx (.mem (.abs a)) s

/-- LDX dir,Y: opcode $B6 (R241, R116). -/
def execLdxDirY (o : Byte) (s : State) : Result := readInstr (wx s) ldx (.mem (.dirY o)) s

/-- LDX abs,Y: opcode $BE (R241, R124). -/
def execLdxAbsY (a : Word) (s : State) : Result := readInstr (wx s) ldx (.mem (.absY a)) s

/-- LDY imm_x: opcode $A0 (R242, R113). -/
def execLdyImm (v : Word) (s : State) : Result := readInstr (wx s) ldy (.imm v) s

/-- LDY dir: opcode $A4 (R242, R114). -/
def execLdyDir (o : Byte) (s : State) : Result := readInstr (wx s) ldy (.mem (.dir o)) s

/-- LDY abs: opcode $AC (R242, R122). -/
def execLdyAbs (a : Word) (s : State) : Result := readInstr (wx s) ldy (.mem (.abs a)) s

/-- LDY dir,X: opcode $B4 (R242, R115). -/
def execLdyDirX (o : Byte) (s : State) : Result := readInstr (wx s) ldy (.mem (.dirX o)) s

/-- LDY abs,X: opcode $BC (R242, R123). -/
def execLdyAbsX (a : Word) (s : State) : Result := readInstr (wx s) ldy (.mem (.absX a)) s

/-- STA (dir,X): opcode $81 (R243, R119). -/
def execStaDirXInd (o : Byte) (s : State) : Result := storeInstr (wm s) s.c (.dirXInd o) s

/-- STA stk,S: opcode $83 (R243, R127). -/
def execStaStk (o : Byte) (s : State) : Result := storeInstr (wm s) s.c (.stk o) s

/-- STA dir: opcode $85 (R243, R114). -/
def execStaDir (o : Byte) (s : State) : Result := storeInstr (wm s) s.c (.dir o) s

/-- STA [dir]: opcode $87 (R243, R120). -/
def execStaDirLong (o : Byte) (s : State) : Result := storeInstr (wm s) s.c (.dirLong o) s

/-- STA abs: opcode $8D (R243, R122). -/
def execStaAbs (a : Word) (s : State) : Result := storeInstr (wm s) s.c (.abs a) s

/-- STA long: opcode $8F (R243, R125). -/
def execStaLong (l : Addr) (s : State) : Result := storeInstr (wm s) s.c (.long l) s

/-- STA (dir),Y: opcode $91 (R243, R118). -/
def execStaDirIndY (o : Byte) (s : State) : Result := storeInstr (wm s) s.c (.dirIndY o) s

/-- STA (dir): opcode $92 (R243, R117). -/
def execStaDirInd (o : Byte) (s : State) : Result := storeInstr (wm s) s.c (.dirInd o) s

/-- STA (stk,S),Y: opcode $93 (R243, R128). -/
def execStaStkIndY (o : Byte) (s : State) : Result := storeInstr (wm s) s.c (.stkIndY o) s

/-- STA dir,X: opcode $95 (R243, R115). -/
def execStaDirX (o : Byte) (s : State) : Result := storeInstr (wm s) s.c (.dirX o) s

/-- STA [dir],Y: opcode $97 (R243, R121). -/
def execStaDirLongY (o : Byte) (s : State) : Result := storeInstr (wm s) s.c (.dirLongY o) s

/-- STA abs,Y: opcode $99 (R243, R124). -/
def execStaAbsY (a : Word) (s : State) : Result := storeInstr (wm s) s.c (.absY a) s

/-- STA abs,X: opcode $9D (R243, R123). -/
def execStaAbsX (a : Word) (s : State) : Result := storeInstr (wm s) s.c (.absX a) s

/-- STA long,X: opcode $9F (R243, R126). -/
def execStaLongX (l : Addr) (s : State) : Result := storeInstr (wm s) s.c (.longX l) s

/-- STX dir: opcode $86 (R244, R114). -/
def execStxDir (o : Byte) (s : State) : Result := storeInstr (wx s) s.x (.dir o) s

/-- STX abs: opcode $8E (R244, R122). -/
def execStxAbs (a : Word) (s : State) : Result := storeInstr (wx s) s.x (.abs a) s

/-- STX dir,Y: opcode $96 (R244, R116). -/
def execStxDirY (o : Byte) (s : State) : Result := storeInstr (wx s) s.x (.dirY o) s

/-- STY dir: opcode $84 (R245, R114). -/
def execStyDir (o : Byte) (s : State) : Result := storeInstr (wx s) s.y (.dir o) s

/-- STY abs: opcode $8C (R245, R122). -/
def execStyAbs (a : Word) (s : State) : Result := storeInstr (wx s) s.y (.abs a) s

/-- STY dir,X: opcode $94 (R245, R115). -/
def execStyDirX (o : Byte) (s : State) : Result := storeInstr (wx s) s.y (.dirX o) s

/-- STZ dir: opcode $64 (R246, R114). -/
def execStzDir (o : Byte) (s : State) : Result := storeInstr (wm s) 0x0000 (.dir o) s

/-- STZ dir,X: opcode $74 (R246, R115). -/
def execStzDirX (o : Byte) (s : State) : Result := storeInstr (wm s) 0x0000 (.dirX o) s

/-- STZ abs: opcode $9C (R246, R122). -/
def execStzAbs (a : Word) (s : State) : Result := storeInstr (wm s) 0x0000 (.abs a) s

/-- STZ abs,X: opcode $9E (R246, R123). -/
def execStzAbsX (a : Word) (s : State) : Result := storeInstr (wm s) 0x0000 (.absX a) s

/-- MVN src,dest: opcode $54 (R247, R136). -/
def execMvn (dst : Byte) (src : Byte) (s : State) : Result := blockMove 0x0001 dst src s

/-- MVP src,dest: opcode $44 (R248, R136). -/
def execMvp (dst : Byte) (src : Byte) (s : State) : Result := blockMove 0xFFFF dst src s

end Sys2Proof.Machine
end

