-- ==== Sys2Proof/Machine/Logic.lean ====
section
/-! DEFINITION. AND, EOR, ORA, BIT, TRB, TSB (spec/42_logic_test.md R160 to R165). -/

namespace Sys2Proof.Machine

/-- AND, EOR and ORA (R160 to R162): the accumulator combined bit by bit with the operand. -/
def logic (f : Word → Word → Word) (w : Width) (b : Word) (s : State) : State :=
  let r := f (accAt w s) b
  setNZOf w r (setAcc w r s)

/-- AND (R160). -/
def andAcc (w : Width) (b : Word) (s : State) : State := logic (fun x y => x &&& y) w b s

/-- EOR (R161). -/
def eorAcc (w : Width) (b : Word) (s : State) : State := logic (fun x y => x ^^^ y) w b s

/-- ORA (R162). -/
def oraAcc (w : Width) (b : Word) (s : State) : State := logic (fun x y => x ||| y) w b s

/-- BIT with a memory operand (R163). -/
def bitMemory (w : Width) (b : Word) (s : State) : State := setP (bitMemoryFlags w (accAt w s) b s.p) s

/-- BIT immediate (R163): n and v are unaffected. -/
def bitImmediate (w : Width) (b : Word) (s : State) : State := setP (bitImmediateFlags w (accAt w s) b s.p) s

/-- AND (dir,X): opcode $21 (R160, R119). -/
def execAndDirXInd (o : Byte) (s : State) : Result := readInstr (wm s) andAcc (.mem (.dirXInd o)) s

/-- AND stk,S: opcode $23 (R160, R127). -/
def execAndStk (o : Byte) (s : State) : Result := readInstr (wm s) andAcc (.mem (.stk o)) s

/-- AND dir: opcode $25 (R160, R114). -/
def execAndDir (o : Byte) (s : State) : Result := readInstr (wm s) andAcc (.mem (.dir o)) s

/-- AND [dir]: opcode $27 (R160, R120). -/
def execAndDirLong (o : Byte) (s : State) : Result := readInstr (wm s) andAcc (.mem (.dirLong o)) s

/-- AND imm_m: opcode $29 (R160, R113). -/
def execAndImm (v : Word) (s : State) : Result := readInstr (wm s) andAcc (.imm v) s

/-- AND abs: opcode $2D (R160, R122). -/
def execAndAbs (a : Word) (s : State) : Result := readInstr (wm s) andAcc (.mem (.abs a)) s

/-- AND long: opcode $2F (R160, R125). -/
def execAndLong (l : Addr) (s : State) : Result := readInstr (wm s) andAcc (.mem (.long l)) s

/-- AND (dir),Y: opcode $31 (R160, R118). -/
def execAndDirIndY (o : Byte) (s : State) : Result := readInstr (wm s) andAcc (.mem (.dirIndY o)) s

/-- AND (dir): opcode $32 (R160, R117). -/
def execAndDirInd (o : Byte) (s : State) : Result := readInstr (wm s) andAcc (.mem (.dirInd o)) s

/-- AND (stk,S),Y: opcode $33 (R160, R128). -/
def execAndStkIndY (o : Byte) (s : State) : Result := readInstr (wm s) andAcc (.mem (.stkIndY o)) s

/-- AND dir,X: opcode $35 (R160, R115). -/
def execAndDirX (o : Byte) (s : State) : Result := readInstr (wm s) andAcc (.mem (.dirX o)) s

/-- AND [dir],Y: opcode $37 (R160, R121). -/
def execAndDirLongY (o : Byte) (s : State) : Result := readInstr (wm s) andAcc (.mem (.dirLongY o)) s

/-- AND abs,Y: opcode $39 (R160, R124). -/
def execAndAbsY (a : Word) (s : State) : Result := readInstr (wm s) andAcc (.mem (.absY a)) s

/-- AND abs,X: opcode $3D (R160, R123). -/
def execAndAbsX (a : Word) (s : State) : Result := readInstr (wm s) andAcc (.mem (.absX a)) s

/-- AND long,X: opcode $3F (R160, R126). -/
def execAndLongX (l : Addr) (s : State) : Result := readInstr (wm s) andAcc (.mem (.longX l)) s

/-- EOR (dir,X): opcode $41 (R161, R119). -/
def execEorDirXInd (o : Byte) (s : State) : Result := readInstr (wm s) eorAcc (.mem (.dirXInd o)) s

/-- EOR stk,S: opcode $43 (R161, R127). -/
def execEorStk (o : Byte) (s : State) : Result := readInstr (wm s) eorAcc (.mem (.stk o)) s

/-- EOR dir: opcode $45 (R161, R114). -/
def execEorDir (o : Byte) (s : State) : Result := readInstr (wm s) eorAcc (.mem (.dir o)) s

/-- EOR [dir]: opcode $47 (R161, R120). -/
def execEorDirLong (o : Byte) (s : State) : Result := readInstr (wm s) eorAcc (.mem (.dirLong o)) s

/-- EOR imm_m: opcode $49 (R161, R113). -/
def execEorImm (v : Word) (s : State) : Result := readInstr (wm s) eorAcc (.imm v) s

/-- EOR abs: opcode $4D (R161, R122). -/
def execEorAbs (a : Word) (s : State) : Result := readInstr (wm s) eorAcc (.mem (.abs a)) s

/-- EOR long: opcode $4F (R161, R125). -/
def execEorLong (l : Addr) (s : State) : Result := readInstr (wm s) eorAcc (.mem (.long l)) s

/-- EOR (dir),Y: opcode $51 (R161, R118). -/
def execEorDirIndY (o : Byte) (s : State) : Result := readInstr (wm s) eorAcc (.mem (.dirIndY o)) s

/-- EOR (dir): opcode $52 (R161, R117). -/
def execEorDirInd (o : Byte) (s : State) : Result := readInstr (wm s) eorAcc (.mem (.dirInd o)) s

/-- EOR (stk,S),Y: opcode $53 (R161, R128). -/
def execEorStkIndY (o : Byte) (s : State) : Result := readInstr (wm s) eorAcc (.mem (.stkIndY o)) s

/-- EOR dir,X: opcode $55 (R161, R115). -/
def execEorDirX (o : Byte) (s : State) : Result := readInstr (wm s) eorAcc (.mem (.dirX o)) s

/-- EOR [dir],Y: opcode $57 (R161, R121). -/
def execEorDirLongY (o : Byte) (s : State) : Result := readInstr (wm s) eorAcc (.mem (.dirLongY o)) s

/-- EOR abs,Y: opcode $59 (R161, R124). -/
def execEorAbsY (a : Word) (s : State) : Result := readInstr (wm s) eorAcc (.mem (.absY a)) s

/-- EOR abs,X: opcode $5D (R161, R123). -/
def execEorAbsX (a : Word) (s : State) : Result := readInstr (wm s) eorAcc (.mem (.absX a)) s

/-- EOR long,X: opcode $5F (R161, R126). -/
def execEorLongX (l : Addr) (s : State) : Result := readInstr (wm s) eorAcc (.mem (.longX l)) s

/-- ORA (dir,X): opcode $01 (R162, R119). -/
def execOraDirXInd (o : Byte) (s : State) : Result := readInstr (wm s) oraAcc (.mem (.dirXInd o)) s

/-- ORA stk,S: opcode $03 (R162, R127). -/
def execOraStk (o : Byte) (s : State) : Result := readInstr (wm s) oraAcc (.mem (.stk o)) s

/-- ORA dir: opcode $05 (R162, R114). -/
def execOraDir (o : Byte) (s : State) : Result := readInstr (wm s) oraAcc (.mem (.dir o)) s

/-- ORA [dir]: opcode $07 (R162, R120). -/
def execOraDirLong (o : Byte) (s : State) : Result := readInstr (wm s) oraAcc (.mem (.dirLong o)) s

/-- ORA imm_m: opcode $09 (R162, R113). -/
def execOraImm (v : Word) (s : State) : Result := readInstr (wm s) oraAcc (.imm v) s

/-- ORA abs: opcode $0D (R162, R122). -/
def execOraAbs (a : Word) (s : State) : Result := readInstr (wm s) oraAcc (.mem (.abs a)) s

/-- ORA long: opcode $0F (R162, R125). -/
def execOraLong (l : Addr) (s : State) : Result := readInstr (wm s) oraAcc (.mem (.long l)) s

/-- ORA (dir),Y: opcode $11 (R162, R118). -/
def execOraDirIndY (o : Byte) (s : State) : Result := readInstr (wm s) oraAcc (.mem (.dirIndY o)) s

/-- ORA (dir): opcode $12 (R162, R117). -/
def execOraDirInd (o : Byte) (s : State) : Result := readInstr (wm s) oraAcc (.mem (.dirInd o)) s

/-- ORA (stk,S),Y: opcode $13 (R162, R128). -/
def execOraStkIndY (o : Byte) (s : State) : Result := readInstr (wm s) oraAcc (.mem (.stkIndY o)) s

/-- ORA dir,X: opcode $15 (R162, R115). -/
def execOraDirX (o : Byte) (s : State) : Result := readInstr (wm s) oraAcc (.mem (.dirX o)) s

/-- ORA [dir],Y: opcode $17 (R162, R121). -/
def execOraDirLongY (o : Byte) (s : State) : Result := readInstr (wm s) oraAcc (.mem (.dirLongY o)) s

/-- ORA abs,Y: opcode $19 (R162, R124). -/
def execOraAbsY (a : Word) (s : State) : Result := readInstr (wm s) oraAcc (.mem (.absY a)) s

/-- ORA abs,X: opcode $1D (R162, R123). -/
def execOraAbsX (a : Word) (s : State) : Result := readInstr (wm s) oraAcc (.mem (.absX a)) s

/-- ORA long,X: opcode $1F (R162, R126). -/
def execOraLongX (l : Addr) (s : State) : Result := readInstr (wm s) oraAcc (.mem (.longX l)) s

/-- BIT dir: opcode $24 (R163, R114). -/
def execBitDir (o : Byte) (s : State) : Result := readInstr (wm s) bitMemory (.mem (.dir o)) s

/-- BIT abs: opcode $2C (R163, R122). -/
def execBitAbs (a : Word) (s : State) : Result := readInstr (wm s) bitMemory (.mem (.abs a)) s

/-- BIT dir,X: opcode $34 (R163, R115). -/
def execBitDirX (o : Byte) (s : State) : Result := readInstr (wm s) bitMemory (.mem (.dirX o)) s

/-- BIT abs,X: opcode $3C (R163, R123). -/
def execBitAbsX (a : Word) (s : State) : Result := readInstr (wm s) bitMemory (.mem (.absX a)) s

/-- BIT imm_m: opcode $89 (R163, R113). -/
def execBitImm (v : Word) (s : State) : Result := readInstr (wm s) bitImmediate (.imm v) s

/-- TRB dir: opcode $14 (R164, R114). -/
def execTrbDir (o : Byte) (s : State) : Result := modifyMemory (trbValue (accAt (wm s) s)) (.dir o) s

/-- TRB abs: opcode $1C (R164, R122). -/
def execTrbAbs (a : Word) (s : State) : Result := modifyMemory (trbValue (accAt (wm s) s)) (.abs a) s

/-- TSB dir: opcode $04 (R165, R114). -/
def execTsbDir (o : Byte) (s : State) : Result := modifyMemory (tsbValue (accAt (wm s) s)) (.dir o) s

/-- TSB abs: opcode $0C (R165, R122). -/
def execTsbAbs (a : Word) (s : State) : Result := modifyMemory (tsbValue (accAt (wm s) s)) (.abs a) s

end Sys2Proof.Machine
end

