-- ==== Sys2Proof/Machine/Shift.lean ====
section
/-! DEFINITION. ASL, LSR, ROL, ROR, DEC, INC on the accumulator and on memory, DEX, DEY, INX, INY
(spec/43_shift_incdec.md R170 to R180). -/

namespace Sys2Proof.Machine

/-- INX and DEX (R175, R178): X plus a step at the index width. -/
def stepX (step : Word) (s : State) : Result :=
  let v := truncTo (wx s) (s.x + step)
  .next (advance 1 (setNZOf (wx s) v (setX (wx s) v s)))

/-- INY and DEY (R176, R179): Y plus a step at the index width. -/
def stepY (step : Word) (s : State) : Result :=
  let v := truncTo (wx s) (s.y + step)
  .next (advance 1 (setNZOf (wx s) v (setY (wx s) v s)))

/-- ASL dir: opcode $06 (R170, R114). -/
def execAslDir (o : Byte) (s : State) : Result := modifyMemory aslValue (.dir o) s

/-- ASL acc: opcode $0A (R170, R129). -/
def execAslAcc (s : State) : Result := modifyAccumulator aslValue s

/-- ASL abs: opcode $0E (R170, R122). -/
def execAslAbs (a : Word) (s : State) : Result := modifyMemory aslValue (.abs a) s

/-- ASL dir,X: opcode $16 (R170, R115). -/
def execAslDirX (o : Byte) (s : State) : Result := modifyMemory aslValue (.dirX o) s

/-- ASL abs,X: opcode $1E (R170, R123). -/
def execAslAbsX (a : Word) (s : State) : Result := modifyMemory aslValue (.absX a) s

/-- LSR dir: opcode $46 (R171, R114). -/
def execLsrDir (o : Byte) (s : State) : Result := modifyMemory lsrValue (.dir o) s

/-- LSR acc: opcode $4A (R171, R129). -/
def execLsrAcc (s : State) : Result := modifyAccumulator lsrValue s

/-- LSR abs: opcode $4E (R171, R122). -/
def execLsrAbs (a : Word) (s : State) : Result := modifyMemory lsrValue (.abs a) s

/-- LSR dir,X: opcode $56 (R171, R115). -/
def execLsrDirX (o : Byte) (s : State) : Result := modifyMemory lsrValue (.dirX o) s

/-- LSR abs,X: opcode $5E (R171, R123). -/
def execLsrAbsX (a : Word) (s : State) : Result := modifyMemory lsrValue (.absX a) s

/-- ROL dir: opcode $26 (R172, R114). -/
def execRolDir (o : Byte) (s : State) : Result := modifyMemory rolValue (.dir o) s

/-- ROL acc: opcode $2A (R172, R129). -/
def execRolAcc (s : State) : Result := modifyAccumulator rolValue s

/-- ROL abs: opcode $2E (R172, R122). -/
def execRolAbs (a : Word) (s : State) : Result := modifyMemory rolValue (.abs a) s

/-- ROL dir,X: opcode $36 (R172, R115). -/
def execRolDirX (o : Byte) (s : State) : Result := modifyMemory rolValue (.dirX o) s

/-- ROL abs,X: opcode $3E (R172, R123). -/
def execRolAbsX (a : Word) (s : State) : Result := modifyMemory rolValue (.absX a) s

/-- ROR dir: opcode $66 (R173, R114). -/
def execRorDir (o : Byte) (s : State) : Result := modifyMemory rorValue (.dir o) s

/-- ROR acc: opcode $6A (R173, R129). -/
def execRorAcc (s : State) : Result := modifyAccumulator rorValue s

/-- ROR abs: opcode $6E (R173, R122). -/
def execRorAbs (a : Word) (s : State) : Result := modifyMemory rorValue (.abs a) s

/-- ROR dir,X: opcode $76 (R173, R115). -/
def execRorDirX (o : Byte) (s : State) : Result := modifyMemory rorValue (.dirX o) s

/-- ROR abs,X: opcode $7E (R173, R123). -/
def execRorAbsX (a : Word) (s : State) : Result := modifyMemory rorValue (.absX a) s

/-- DEC acc: opcode $3A (R174, R129). -/
def execDecAcc (s : State) : Result := modifyAccumulator decValue s

/-- DEC dir: opcode $C6 (R174, R114). -/
def execDecDir (o : Byte) (s : State) : Result := modifyMemory decValue (.dir o) s

/-- DEC abs: opcode $CE (R174, R122). -/
def execDecAbs (a : Word) (s : State) : Result := modifyMemory decValue (.abs a) s

/-- DEC dir,X: opcode $D6 (R174, R115). -/
def execDecDirX (o : Byte) (s : State) : Result := modifyMemory decValue (.dirX o) s

/-- DEC abs,X: opcode $DE (R174, R123). -/
def execDecAbsX (a : Word) (s : State) : Result := modifyMemory decValue (.absX a) s

/-- DEX: opcode $CA (R175, R130). -/
def execDex (s : State) : Result := stepX 0xFFFF s

/-- DEY: opcode $88 (R176, R130). -/
def execDey (s : State) : Result := stepY 0xFFFF s

/-- INC acc: opcode $1A (R177, R129). -/
def execIncAcc (s : State) : Result := modifyAccumulator incValue s

/-- INC dir: opcode $E6 (R177, R114). -/
def execIncDir (o : Byte) (s : State) : Result := modifyMemory incValue (.dir o) s

/-- INC abs: opcode $EE (R177, R122). -/
def execIncAbs (a : Word) (s : State) : Result := modifyMemory incValue (.abs a) s

/-- INC dir,X: opcode $F6 (R177, R115). -/
def execIncDirX (o : Byte) (s : State) : Result := modifyMemory incValue (.dirX o) s

/-- INC abs,X: opcode $FE (R177, R123). -/
def execIncAbsX (a : Word) (s : State) : Result := modifyMemory incValue (.absX a) s

/-- INX: opcode $E8 (R178, R130). -/
def execInx (s : State) : Result := stepX 0x0001 s

/-- INY: opcode $C8 (R179, R130). -/
def execIny (s : State) : Result := stepY 0x0001 s

end Sys2Proof.Machine
end

