-- ==== Sys2Proof/Machine/Stack.lean ====
section
/-! DEFINITION. The stack instructions (spec/48_stack.md R255 to R270). PHP pushes P as it is, also in emulation mode
(R262, log 34). -/

namespace Sys2Proof.Machine

/-- The pushes of PEA, PEI, PER and PHD (R255 to R257, R260): always 16 bits, with the 16-bit stack pointer. -/
def pushEffective (v : Word) (len : Nat) (s : State) : Result := .next (advance len (endStackN (push16n v s)))

/-- The word that PEI pushes: no page wrap for its second byte (R112, R256). -/
def peiWord (o : Byte) (s : State) : Word := s.readWord (dp s o.toNat)

/-- PEA imm16: opcode $F4 (R255, R113). -/
def execPea (v : Word) (s : State) : Result := pushEffective v 3 s

/-- PEI dir: opcode $D4 (R256, R114). -/
def execPei (o : Byte) (s : State) : Result := pushEffective (peiWord o s) 2 s

/-- PER rel16: opcode $62 (R257, R132). -/
def execPer (r : Word) (s : State) : Result := pushEffective (s.pc + 3 + r) 3 s

/-- PHA: opcode $48 (R258, R130). -/
def execPha (s : State) : Result := .next (advance 1 (pushAt (wm s) s.c s))

/-- PHB: opcode $8B (R259, R130). -/
def execPhb (s : State) : Result := .next (advance 1 (push8 s.dbr s))

/-- PHD: opcode $0B (R260, R130). -/
def execPhd (s : State) : Result := pushEffective s.d 1 s

/-- PHK: opcode $4B (R261, R130). -/
def execPhk (s : State) : Result := .next (advance 1 (push8 s.pbr s))

/-- PHP: opcode $08 (R262, R130). -/
def execPhp (s : State) : Result := .next (advance 1 (push8 s.p s))

/-- PHX: opcode $DA (R263, R130). -/
def execPhx (s : State) : Result := .next (advance 1 (pushAt (wx s) s.x s))

/-- PHY: opcode $5A (R264, R130). -/
def execPhy (s : State) : Result := .next (advance 1 (pushAt (wx s) s.y s))

/-- PLA: opcode $68 (R265, R130). -/
def execPla (s : State) : Result :=
  let r := pullAt (wm s) s
  .next (advance 1 (setNZOf (wm s) r.1 (setAcc (wm s) r.1 r.2)))

/-- PLB: opcode $AB (R266, R130). -/
def execPlb (s : State) : Result :=
  let r := pull8 s
  .next (advance 1 (setNZOf .w8 (extendByte r.1) { r.2 with dbr := r.1 }))

/-- PLD: opcode $2B (R267, R130). -/
def execPld (s : State) : Result :=
  let r := pull16n s
  .next (advance 1 (endStackN (setNZOf .w16 r.1 { r.2 with d := r.1 })))

/-- PLP: opcode $28 (R268, R130). -/
def execPlp (s : State) : Result := .next (advance 1 (loadP (pull8 s).1 (pull8 s).2))

/-- PLX: opcode $FA (R269, R130). -/
def execPlx (s : State) : Result :=
  let r := pullAt (wx s) s
  .next (advance 1 (setNZOf (wx s) r.1 (setX (wx s) r.1 r.2)))

/-- PLY: opcode $7A (R270, R130). -/
def execPly (s : State) : Result :=
  let r := pullAt (wx s) s
  .next (advance 1 (setNZOf (wx s) r.1 (setY (wx s) r.1 r.2)))

end Sys2Proof.Machine
end

