-- ==== Sys2Proof/Machine/Transfer.lean ====
section
/-! DEFINITION. The transfers between registers (spec/49_transfer.md R280 to R292). -/

namespace Sys2Proof.Machine

/-- A transfer to the accumulator at width `wm` (R287, R290). -/
def transferToA (v : Word) (s : State) : Result :=
  let r := truncTo (wm s) v
  .next (advance 1 (setNZOf (wm s) r (setAcc (wm s) r s)))

/-- A transfer to X at width `wx` (R280, R286, R291). -/
def transferToX (v : Word) (s : State) : Result :=
  let r := truncTo (wx s) v
  .next (advance 1 (setNZOf (wx s) r (setX (wx s) r s)))

/-- A transfer to Y at width `wx` (R281, R289). -/
def transferToY (v : Word) (s : State) : Result :=
  let r := truncTo (wx s) v
  .next (advance 1 (setNZOf (wx s) r (setY (wx s) r s)))

/-- A transfer to the 16-bit accumulator (R284, R285): 16 bits in every mode. -/
def transferToC (v : Word) (s : State) : Result := .next (advance 1 (setNZOf .w16 v { s with c := v }))

/-- TCS and TXS (R283, R288): 16 bits in native mode; in emulation mode SH stays $01 (I2; C36, log 28: unsafe). -/
def transferToS (v : Word) (s : State) : Result :=
  .next (advance 1 { s with sp := if s.e then joinBytes 0x01 (lowByte v) else v })

/-- TAX: opcode $AA (R280, R130). -/
def execTax (s : State) : Result := transferToX s.c s

/-- TAY: opcode $A8 (R281, R130). -/
def execTay (s : State) : Result := transferToY s.c s

/-- TCD: opcode $5B (R282, R130). -/
def execTcd (s : State) : Result := .next (advance 1 (setNZOf .w16 s.c { s with d := s.c }))

/-- TCS: opcode $1B (R283, R130). -/
def execTcs (s : State) : Result := transferToS s.c s

/-- TDC: opcode $7B (R284, R130). -/
def execTdc (s : State) : Result := transferToC s.d s

/-- TSC: opcode $3B (R285, R130). -/
def execTsc (s : State) : Result := transferToC s.sp s

/-- TSX: opcode $BA (R286, R130). -/
def execTsx (s : State) : Result := transferToX s.sp s

/-- TXA: opcode $8A (R287, R130). -/
def execTxa (s : State) : Result := transferToA s.x s

/-- TXS: opcode $9A (R288, R130). -/
def execTxs (s : State) : Result := transferToS s.x s

/-- TXY: opcode $9B (R289, R130). -/
def execTxy (s : State) : Result := transferToY s.x s

/-- TYA: opcode $98 (R290, R130). -/
def execTya (s : State) : Result := transferToA s.y s

/-- TYX: opcode $BB (R291, R130). -/
def execTyx (s : State) : Result := transferToX s.y s

/-- XBA: opcode $EB (R292, R130). -/
def execXba (s : State) : Result :=
  let swapped := joinBytes (lowByte s.c) (highByte s.c)
  .next (advance 1 (setNZOf .w8 (extendByte (lowByte swapped)) { s with c := swapped }))

end Sys2Proof.Machine
end

