-- ==== Sys2Proof/Syntax.lean ====
section
/-! DEFINITION. The instructions: one constructor for each of the 256 rows of spec/opcode_table.json (R84, R85), in
the order of the instruction files. A constructor holds the operand bytes of R82 put together as R87 says:
`o` a direct or stack offset, `a` a 16-bit address, `l` a 24-bit address, `v` an immediate, `r` a displacement, `mask`
the operand of REP and SEP, `sig` a byte the processor ignores, `dst` and `src` the banks of a block move in the order
of the instruction bytes (R89). An immediate whose width is chosen by P.m or P.x is a word; at 8 bits its high byte is
zero (`Instr.wellFormed`, log 17). -/

namespace Sys2Proof

/-- The instructions of the 65C816. The first rule named is the instruction's, the second its operand's. -/
inductive Instr where
  -- Arithmetic and compare (41_arithmetic_compare.md)
  /-- ADC (dir,X): opcode $61 (R150, R119). -/
  | adcDirXInd (o : Byte)
  /-- ADC stk,S: opcode $63 (R150, R127). -/
  | adcStk (o : Byte)
  /-- ADC dir: opcode $65 (R150, R114). -/
  | adcDir (o : Byte)
  /-- ADC [dir]: opcode $67 (R150, R120). -/
  | adcDirLong (o : Byte)
  /-- ADC imm_m: opcode $69 (R150, R113). -/
  | adcImm (v : Word)
  /-- ADC abs: opcode $6D (R150, R122). -/
  | adcAbs (a : Word)
  /-- ADC long: opcode $6F (R150, R125). -/
  | adcLong (l : Addr)
  /-- ADC (dir),Y: opcode $71 (R150, R118). -/
  | adcDirIndY (o : Byte)
  /-- ADC (dir): opcode $72 (R150, R117). -/
  | adcDirInd (o : Byte)
  /-- ADC (stk,S),Y: opcode $73 (R150, R128). -/
  | adcStkIndY (o : Byte)
  /-- ADC dir,X: opcode $75 (R150, R115). -/
  | adcDirX (o : Byte)
  /-- ADC [dir],Y: opcode $77 (R150, R121). -/
  | adcDirLongY (o : Byte)
  /-- ADC abs,Y: opcode $79 (R150, R124). -/
  | adcAbsY (a : Word)
  /-- ADC abs,X: opcode $7D (R150, R123). -/
  | adcAbsX (a : Word)
  /-- ADC long,X: opcode $7F (R150, R126). -/
  | adcLongX (l : Addr)
  /-- SBC (dir,X): opcode $E1 (R151, R119). -/
  | sbcDirXInd (o : Byte)
  /-- SBC stk,S: opcode $E3 (R151, R127). -/
  | sbcStk (o : Byte)
  /-- SBC dir: opcode $E5 (R151, R114). -/
  | sbcDir (o : Byte)
  /-- SBC [dir]: opcode $E7 (R151, R120). -/
  | sbcDirLong (o : Byte)
  /-- SBC imm_m: opcode $E9 (R151, R113). -/
  | sbcImm (v : Word)
  /-- SBC abs: opcode $ED (R151, R122). -/
  | sbcAbs (a : Word)
  /-- SBC long: opcode $EF (R151, R125). -/
  | sbcLong (l : Addr)
  /-- SBC (dir),Y: opcode $F1 (R151, R118). -/
  | sbcDirIndY (o : Byte)
  /-- SBC (dir): opcode $F2 (R151, R117). -/
  | sbcDirInd (o : Byte)
  /-- SBC (stk,S),Y: opcode $F3 (R151, R128). -/
  | sbcStkIndY (o : Byte)
  /-- SBC dir,X: opcode $F5 (R151, R115). -/
  | sbcDirX (o : Byte)
  /-- SBC [dir],Y: opcode $F7 (R151, R121). -/
  | sbcDirLongY (o : Byte)
  /-- SBC abs,Y: opcode $F9 (R151, R124). -/
  | sbcAbsY (a : Word)
  /-- SBC abs,X: opcode $FD (R151, R123). -/
  | sbcAbsX (a : Word)
  /-- SBC long,X: opcode $FF (R151, R126). -/
  | sbcLongX (l : Addr)
  /-- CMP (dir,X): opcode $C1 (R153, R119). -/
  | cmpDirXInd (o : Byte)
  /-- CMP stk,S: opcode $C3 (R153, R127). -/
  | cmpStk (o : Byte)
  /-- CMP dir: opcode $C5 (R153, R114). -/
  | cmpDir (o : Byte)
  /-- CMP [dir]: opcode $C7 (R153, R120). -/
  | cmpDirLong (o : Byte)
  /-- CMP imm_m: opcode $C9 (R153, R113). -/
  | cmpImm (v : Word)
  /-- CMP abs: opcode $CD (R153, R122). -/
  | cmpAbs (a : Word)
  /-- CMP long: opcode $CF (R153, R125). -/
  | cmpLong (l : Addr)
  /-- CMP (dir),Y: opcode $D1 (R153, R118). -/
  | cmpDirIndY (o : Byte)
  /-- CMP (dir): opcode $D2 (R153, R117). -/
  | cmpDirInd (o : Byte)
  /-- CMP (stk,S),Y: opcode $D3 (R153, R128). -/
  | cmpStkIndY (o : Byte)
  /-- CMP dir,X: opcode $D5 (R153, R115). -/
  | cmpDirX (o : Byte)
  /-- CMP [dir],Y: opcode $D7 (R153, R121). -/
  | cmpDirLongY (o : Byte)
  /-- CMP abs,Y: opcode $D9 (R153, R124). -/
  | cmpAbsY (a : Word)
  /-- CMP abs,X: opcode $DD (R153, R123). -/
  | cmpAbsX (a : Word)
  /-- CMP long,X: opcode $DF (R153, R126). -/
  | cmpLongX (l : Addr)
  /-- CPX imm_x: opcode $E0 (R154, R113). -/
  | cpxImm (v : Word)
  /-- CPX dir: opcode $E4 (R154, R114). -/
  | cpxDir (o : Byte)
  /-- CPX abs: opcode $EC (R154, R122). -/
  | cpxAbs (a : Word)
  /-- CPY imm_x: opcode $C0 (R155, R113). -/
  | cpyImm (v : Word)
  /-- CPY dir: opcode $C4 (R155, R114). -/
  | cpyDir (o : Byte)
  /-- CPY abs: opcode $CC (R155, R122). -/
  | cpyAbs (a : Word)
  -- Logic and bit test (42_logic_test.md)
  /-- AND (dir,X): opcode $21 (R160, R119). -/
  | andDirXInd (o : Byte)
  /-- AND stk,S: opcode $23 (R160, R127). -/
  | andStk (o : Byte)
  /-- AND dir: opcode $25 (R160, R114). -/
  | andDir (o : Byte)
  /-- AND [dir]: opcode $27 (R160, R120). -/
  | andDirLong (o : Byte)
  /-- AND imm_m: opcode $29 (R160, R113). -/
  | andImm (v : Word)
  /-- AND abs: opcode $2D (R160, R122). -/
  | andAbs (a : Word)
  /-- AND long: opcode $2F (R160, R125). -/
  | andLong (l : Addr)
  /-- AND (dir),Y: opcode $31 (R160, R118). -/
  | andDirIndY (o : Byte)
  /-- AND (dir): opcode $32 (R160, R117). -/
  | andDirInd (o : Byte)
  /-- AND (stk,S),Y: opcode $33 (R160, R128). -/
  | andStkIndY (o : Byte)
  /-- AND dir,X: opcode $35 (R160, R115). -/
  | andDirX (o : Byte)
  /-- AND [dir],Y: opcode $37 (R160, R121). -/
  | andDirLongY (o : Byte)
  /-- AND abs,Y: opcode $39 (R160, R124). -/
  | andAbsY (a : Word)
  /-- AND abs,X: opcode $3D (R160, R123). -/
  | andAbsX (a : Word)
  /-- AND long,X: opcode $3F (R160, R126). -/
  | andLongX (l : Addr)
  /-- EOR (dir,X): opcode $41 (R161, R119). -/
  | eorDirXInd (o : Byte)
  /-- EOR stk,S: opcode $43 (R161, R127). -/
  | eorStk (o : Byte)
  /-- EOR dir: opcode $45 (R161, R114). -/
  | eorDir (o : Byte)
  /-- EOR [dir]: opcode $47 (R161, R120). -/
  | eorDirLong (o : Byte)
  /-- EOR imm_m: opcode $49 (R161, R113). -/
  | eorImm (v : Word)
  /-- EOR abs: opcode $4D (R161, R122). -/
  | eorAbs (a : Word)
  /-- EOR long: opcode $4F (R161, R125). -/
  | eorLong (l : Addr)
  /-- EOR (dir),Y: opcode $51 (R161, R118). -/
  | eorDirIndY (o : Byte)
  /-- EOR (dir): opcode $52 (R161, R117). -/
  | eorDirInd (o : Byte)
  /-- EOR (stk,S),Y: opcode $53 (R161, R128). -/
  | eorStkIndY (o : Byte)
  /-- EOR dir,X: opcode $55 (R161, R115). -/
  | eorDirX (o : Byte)
  /-- EOR [dir],Y: opcode $57 (R161, R121). -/
  | eorDirLongY (o : Byte)
  /-- EOR abs,Y: opcode $59 (R161, R124). -/
  | eorAbsY (a : Word)
  /-- EOR abs,X: opcode $5D (R161, R123). -/
  | eorAbsX (a : Word)
  /-- EOR long,X: opcode $5F (R161, R126). -/
  | eorLongX (l : Addr)
  /-- ORA (dir,X): opcode $01 (R162, R119). -/
  | oraDirXInd (o : Byte)
  /-- ORA stk,S: opcode $03 (R162, R127). -/
  | oraStk (o : Byte)
  /-- ORA dir: opcode $05 (R162, R114). -/
  | oraDir (o : Byte)
  /-- ORA [dir]: opcode $07 (R162, R120). -/
  | oraDirLong (o : Byte)
  /-- ORA imm_m: opcode $09 (R162, R113). -/
  | oraImm (v : Word)
  /-- ORA abs: opcode $0D (R162, R122). -/
  | oraAbs (a : Word)
  /-- ORA long: opcode $0F (R162, R125). -/
  | oraLong (l : Addr)
  /-- ORA (dir),Y: opcode $11 (R162, R118). -/
  | oraDirIndY (o : Byte)
  /-- ORA (dir): opcode $12 (R162, R117). -/
  | oraDirInd (o : Byte)
  /-- ORA (stk,S),Y: opcode $13 (R162, R128). -/
  | oraStkIndY (o : Byte)
  /-- ORA dir,X: opcode $15 (R162, R115). -/
  | oraDirX (o : Byte)
  /-- ORA [dir],Y: opcode $17 (R162, R121). -/
  | oraDirLongY (o : Byte)
  /-- ORA abs,Y: opcode $19 (R162, R124). -/
  | oraAbsY (a : Word)
  /-- ORA abs,X: opcode $1D (R162, R123). -/
  | oraAbsX (a : Word)
  /-- ORA long,X: opcode $1F (R162, R126). -/
  | oraLongX (l : Addr)
  /-- BIT dir: opcode $24 (R163, R114). -/
  | bitDir (o : Byte)
  /-- BIT abs: opcode $2C (R163, R122). -/
  | bitAbs (a : Word)
  /-- BIT dir,X: opcode $34 (R163, R115). -/
  | bitDirX (o : Byte)
  /-- BIT abs,X: opcode $3C (R163, R123). -/
  | bitAbsX (a : Word)
  /-- BIT imm_m: opcode $89 (R163, R113). -/
  | bitImm (v : Word)
  /-- TRB dir: opcode $14 (R164, R114). -/
  | trbDir (o : Byte)
  /-- TRB abs: opcode $1C (R164, R122). -/
  | trbAbs (a : Word)
  /-- TSB dir: opcode $04 (R165, R114). -/
  | tsbDir (o : Byte)
  /-- TSB abs: opcode $0C (R165, R122). -/
  | tsbAbs (a : Word)
  -- Shift, rotate, increment, decrement (43_shift_incdec.md)
  /-- ASL dir: opcode $06 (R170, R114). -/
  | aslDir (o : Byte)
  /-- ASL acc: opcode $0A (R170, R129). -/
  | aslAcc
  /-- ASL abs: opcode $0E (R170, R122). -/
  | aslAbs (a : Word)
  /-- ASL dir,X: opcode $16 (R170, R115). -/
  | aslDirX (o : Byte)
  /-- ASL abs,X: opcode $1E (R170, R123). -/
  | aslAbsX (a : Word)
  /-- LSR dir: opcode $46 (R171, R114). -/
  | lsrDir (o : Byte)
  /-- LSR acc: opcode $4A (R171, R129). -/
  | lsrAcc
  /-- LSR abs: opcode $4E (R171, R122). -/
  | lsrAbs (a : Word)
  /-- LSR dir,X: opcode $56 (R171, R115). -/
  | lsrDirX (o : Byte)
  /-- LSR abs,X: opcode $5E (R171, R123). -/
  | lsrAbsX (a : Word)
  /-- ROL dir: opcode $26 (R172, R114). -/
  | rolDir (o : Byte)
  /-- ROL acc: opcode $2A (R172, R129). -/
  | rolAcc
  /-- ROL abs: opcode $2E (R172, R122). -/
  | rolAbs (a : Word)
  /-- ROL dir,X: opcode $36 (R172, R115). -/
  | rolDirX (o : Byte)
  /-- ROL abs,X: opcode $3E (R172, R123). -/
  | rolAbsX (a : Word)
  /-- ROR dir: opcode $66 (R173, R114). -/
  | rorDir (o : Byte)
  /-- ROR acc: opcode $6A (R173, R129). -/
  | rorAcc
  /-- ROR abs: opcode $6E (R173, R122). -/
  | rorAbs (a : Word)
  /-- ROR dir,X: opcode $76 (R173, R115). -/
  | rorDirX (o : Byte)
  /-- ROR abs,X: opcode $7E (R173, R123). -/
  | rorAbsX (a : Word)
  /-- DEC acc: opcode $3A (R174, R129). -/
  | decAcc
  /-- DEC dir: opcode $C6 (R174, R114). -/
  | decDir (o : Byte)
  /-- DEC abs: opcode $CE (R174, R122). -/
  | decAbs (a : Word)
  /-- DEC dir,X: opcode $D6 (R174, R115). -/
  | decDirX (o : Byte)
  /-- DEC abs,X: opcode $DE (R174, R123). -/
  | decAbsX (a : Word)
  /-- DEX: opcode $CA (R175, R130). -/
  | dex
  /-- DEY: opcode $88 (R176, R130). -/
  | dey
  /-- INC acc: opcode $1A (R177, R129). -/
  | incAcc
  /-- INC dir: opcode $E6 (R177, R114). -/
  | incDir (o : Byte)
  /-- INC abs: opcode $EE (R177, R122). -/
  | incAbs (a : Word)
  /-- INC dir,X: opcode $F6 (R177, R115). -/
  | incDirX (o : Byte)
  /-- INC abs,X: opcode $FE (R177, R123). -/
  | incAbsX (a : Word)
  /-- INX: opcode $E8 (R178, R130). -/
  | inx
  /-- INY: opcode $C8 (R179, R130). -/
  | iny
  -- Branch (44_branch.md)
  /-- BCC rel8: opcode $90 (R186, R131). -/
  | bcc (r : Byte)
  /-- BCS rel8: opcode $B0 (R187, R131). -/
  | bcs (r : Byte)
  /-- BEQ rel8: opcode $F0 (R188, R131). -/
  | beq (r : Byte)
  /-- BMI rel8: opcode $30 (R189, R131). -/
  | bmi (r : Byte)
  /-- BNE rel8: opcode $D0 (R190, R131). -/
  | bne (r : Byte)
  /-- BPL rel8: opcode $10 (R191, R131). -/
  | bpl (r : Byte)
  /-- BRA rel8: opcode $80 (R192, R131). -/
  | bra (r : Byte)
  /-- BRL rel16: opcode $82 (R193, R132). -/
  | brl (r : Word)
  /-- BVC rel8: opcode $50 (R194, R131). -/
  | bvc (r : Byte)
  /-- BVS rel8: opcode $70 (R195, R131). -/
  | bvs (r : Byte)
  -- Flags and mode (45_flags_mode.md)
  /-- CLC: opcode $18 (R200, R130). -/
  | clc
  /-- CLD: opcode $D8 (R201, R130). -/
  | cld
  /-- CLI: opcode $58 (R202, R130). -/
  | cli
  /-- CLV: opcode $B8 (R203, R130). -/
  | clv
  /-- SEC: opcode $38 (R204, R130). -/
  | sec
  /-- SED: opcode $F8 (R205, R130). -/
  | sed
  /-- SEI: opcode $78 (R206, R130). -/
  | sei
  /-- REP #imm8: opcode $C2 (R207, R113). -/
  | rep (mask : Byte)
  /-- SEP #imm8: opcode $E2 (R208, R113). -/
  | sep (mask : Byte)
  /-- XCE: opcode $FB (R209, R130). -/
  | xce
  -- Flow and system (46_flow_system.md)
  /-- JMP abs: opcode $4C (R215, R122). -/
  | jmpAbs (a : Word)
  /-- JMP (abs): opcode $6C (R215, R133). -/
  | jmpAbsInd (a : Word)
  /-- JMP (abs,X): opcode $7C (R215, R134). -/
  | jmpAbsXInd (a : Word)
  /-- JML long: opcode $5C (R216, R125). -/
  | jmlLong (l : Addr)
  /-- JML [abs]: opcode $DC (R216, R135). -/
  | jmlAbsLong (a : Word)
  /-- JSR abs: opcode $20 (R217, R122). -/
  | jsrAbs (a : Word)
  /-- JSR (abs,X): opcode $FC (R217, R134). -/
  | jsrAbsXInd (a : Word)
  /-- JSL long: opcode $22 (R218, R125). -/
  | jsl (l : Addr)
  /-- RTS: opcode $60 (R219, R130). -/
  | rts
  /-- RTL: opcode $6B (R220, R130). -/
  | rtl
  /-- NOP: opcode $EA (R221, R130). -/
  | nop
  /-- WDM #imm8: opcode $42 (R222, R113). -/
  | wdm (sig : Byte)
  /-- BRK #imm8: opcode $00 (R223, R113). -/
  | brk (sig : Byte)
  /-- COP #imm8: opcode $02 (R224, R113). -/
  | cop (sig : Byte)
  /-- RTI: opcode $40 (R225, R130). -/
  | rti
  /-- WAI: opcode $CB (R226, R130). -/
  | wai
  /-- STP: opcode $DB (R227, R130). -/
  | stp
  -- Load, store, block move (47_load_store_move.md)
  /-- LDA (dir,X): opcode $A1 (R240, R119). -/
  | ldaDirXInd (o : Byte)
  /-- LDA stk,S: opcode $A3 (R240, R127). -/
  | ldaStk (o : Byte)
  /-- LDA dir: opcode $A5 (R240, R114). -/
  | ldaDir (o : Byte)
  /-- LDA [dir]: opcode $A7 (R240, R120). -/
  | ldaDirLong (o : Byte)
  /-- LDA imm_m: opcode $A9 (R240, R113). -/
  | ldaImm (v : Word)
  /-- LDA abs: opcode $AD (R240, R122). -/
  | ldaAbs (a : Word)
  /-- LDA long: opcode $AF (R240, R125). -/
  | ldaLong (l : Addr)
  /-- LDA (dir),Y: opcode $B1 (R240, R118). -/
  | ldaDirIndY (o : Byte)
  /-- LDA (dir): opcode $B2 (R240, R117). -/
  | ldaDirInd (o : Byte)
  /-- LDA (stk,S),Y: opcode $B3 (R240, R128). -/
  | ldaStkIndY (o : Byte)
  /-- LDA dir,X: opcode $B5 (R240, R115). -/
  | ldaDirX (o : Byte)
  /-- LDA [dir],Y: opcode $B7 (R240, R121). -/
  | ldaDirLongY (o : Byte)
  /-- LDA abs,Y: opcode $B9 (R240, R124). -/
  | ldaAbsY (a : Word)
  /-- LDA abs,X: opcode $BD (R240, R123). -/
  | ldaAbsX (a : Word)
  /-- LDA long,X: opcode $BF (R240, R126). -/
  | ldaLongX (l : Addr)
  /-- LDX imm_x: opcode $A2 (R241, R113). -/
  | ldxImm (v : Word)
  /-- LDX dir: opcode $A6 (R241, R114). -/
  | ldxDir (o : Byte)
  /-- LDX abs: opcode $AE (R241, R122). -/
  | ldxAbs (a : Word)
  /-- LDX dir,Y: opcode $B6 (R241, R116). -/
  | ldxDirY (o : Byte)
  /-- LDX abs,Y: opcode $BE (R241, R124). -/
  | ldxAbsY (a : Word)
  /-- LDY imm_x: opcode $A0 (R242, R113). -/
  | ldyImm (v : Word)
  /-- LDY dir: opcode $A4 (R242, R114). -/
  | ldyDir (o : Byte)
  /-- LDY abs: opcode $AC (R242, R122). -/
  | ldyAbs (a : Word)
  /-- LDY dir,X: opcode $B4 (R242, R115). -/
  | ldyDirX (o : Byte)
  /-- LDY abs,X: opcode $BC (R242, R123). -/
  | ldyAbsX (a : Word)
  /-- STA (dir,X): opcode $81 (R243, R119). -/
  | staDirXInd (o : Byte)
  /-- STA stk,S: opcode $83 (R243, R127). -/
  | staStk (o : Byte)
  /-- STA dir: opcode $85 (R243, R114). -/
  | staDir (o : Byte)
  /-- STA [dir]: opcode $87 (R243, R120). -/
  | staDirLong (o : Byte)
  /-- STA abs: opcode $8D (R243, R122). -/
  | staAbs (a : Word)
  /-- STA long: opcode $8F (R243, R125). -/
  | staLong (l : Addr)
  /-- STA (dir),Y: opcode $91 (R243, R118). -/
  | staDirIndY (o : Byte)
  /-- STA (dir): opcode $92 (R243, R117). -/
  | staDirInd (o : Byte)
  /-- STA (stk,S),Y: opcode $93 (R243, R128). -/
  | staStkIndY (o : Byte)
  /-- STA dir,X: opcode $95 (R243, R115). -/
  | staDirX (o : Byte)
  /-- STA [dir],Y: opcode $97 (R243, R121). -/
  | staDirLongY (o : Byte)
  /-- STA abs,Y: opcode $99 (R243, R124). -/
  | staAbsY (a : Word)
  /-- STA abs,X: opcode $9D (R243, R123). -/
  | staAbsX (a : Word)
  /-- STA long,X: opcode $9F (R243, R126). -/
  | staLongX (l : Addr)
  /-- STX dir: opcode $86 (R244, R114). -/
  | stxDir (o : Byte)
  /-- STX abs: opcode $8E (R244, R122). -/
  | stxAbs (a : Word)
  /-- STX dir,Y: opcode $96 (R244, R116). -/
  | stxDirY (o : Byte)
  /-- STY dir: opcode $84 (R245, R114). -/
  | styDir (o : Byte)
  /-- STY abs: opcode $8C (R245, R122). -/
  | styAbs (a : Word)
  /-- STY dir,X: opcode $94 (R245, R115). -/
  | styDirX (o : Byte)
  /-- STZ dir: opcode $64 (R246, R114). -/
  | stzDir (o : Byte)
  /-- STZ dir,X: opcode $74 (R246, R115). -/
  | stzDirX (o : Byte)
  /-- STZ abs: opcode $9C (R246, R122). -/
  | stzAbs (a : Word)
  /-- STZ abs,X: opcode $9E (R246, R123). -/
  | stzAbsX (a : Word)
  /-- MVN src,dest: opcode $54 (R247, R136). -/
  | mvn (dst : Byte) (src : Byte)
  /-- MVP src,dest: opcode $44 (R248, R136). -/
  | mvp (dst : Byte) (src : Byte)
  -- Stack (48_stack.md)
  /-- PEA imm16: opcode $F4 (R255, R113). -/
  | pea (v : Word)
  /-- PEI dir: opcode $D4 (R256, R114). -/
  | pei (o : Byte)
  /-- PER rel16: opcode $62 (R257, R132). -/
  | per (r : Word)
  /-- PHA: opcode $48 (R258, R130). -/
  | pha
  /-- PHB: opcode $8B (R259, R130). -/
  | phb
  /-- PHD: opcode $0B (R260, R130). -/
  | phd
  /-- PHK: opcode $4B (R261, R130). -/
  | phk
  /-- PHP: opcode $08 (R262, R130). -/
  | php
  /-- PHX: opcode $DA (R263, R130). -/
  | phx
  /-- PHY: opcode $5A (R264, R130). -/
  | phy
  /-- PLA: opcode $68 (R265, R130). -/
  | pla
  /-- PLB: opcode $AB (R266, R130). -/
  | plb
  /-- PLD: opcode $2B (R267, R130). -/
  | pld
  /-- PLP: opcode $28 (R268, R130). -/
  | plp
  /-- PLX: opcode $FA (R269, R130). -/
  | plx
  /-- PLY: opcode $7A (R270, R130). -/
  | ply
  -- Transfer (49_transfer.md)
  /-- TAX: opcode $AA (R280, R130). -/
  | tax
  /-- TAY: opcode $A8 (R281, R130). -/
  | tay
  /-- TCD: opcode $5B (R282, R130). -/
  | tcd
  /-- TCS: opcode $1B (R283, R130). -/
  | tcs
  /-- TDC: opcode $7B (R284, R130). -/
  | tdc
  /-- TSC: opcode $3B (R285, R130). -/
  | tsc
  /-- TSX: opcode $BA (R286, R130). -/
  | tsx
  /-- TXA: opcode $8A (R287, R130). -/
  | txa
  /-- TXS: opcode $9A (R288, R130). -/
  | txs
  /-- TXY: opcode $9B (R289, R130). -/
  | txy
  /-- TYA: opcode $98 (R290, R130). -/
  | tya
  /-- TYX: opcode $BB (R291, R130). -/
  | tyx
  /-- XBA: opcode $EB (R292, R130). -/
  | xba
  deriving DecidableEq, Repr

end Sys2Proof
end

