-- ==== Sys2Proof/Machine/Dispatch.lean ====
section
/-! DEFINITION. One arm for each constructor of Instr, each a direct call of its meaning, in the order of
spec/opcode_table.json. -/

namespace Sys2Proof.Machine

open Sys2Proof

def exec (i : Instr) (s : State) : Host.Outcome State Fault Refusal :=
  match i with
  | .brk sig => Sys2Proof.Machine.execBrk sig s
  | .oraDirXInd o => Sys2Proof.Machine.execOraDirXInd o s
  | .cop sig => Sys2Proof.Machine.execCop sig s
  | .oraStk o => Sys2Proof.Machine.execOraStk o s
  | .tsbDir o => Sys2Proof.Machine.execTsbDir o s
  | .oraDir o => Sys2Proof.Machine.execOraDir o s
  | .aslDir o => Sys2Proof.Machine.execAslDir o s
  | .oraDirLong o => Sys2Proof.Machine.execOraDirLong o s
  | .php => Sys2Proof.Machine.execPhp s
  | .oraImm v => Sys2Proof.Machine.execOraImm v s
  | .aslAcc => Sys2Proof.Machine.execAslAcc s
  | .phd => Sys2Proof.Machine.execPhd s
  | .tsbAbs a => Sys2Proof.Machine.execTsbAbs a s
  | .oraAbs a => Sys2Proof.Machine.execOraAbs a s
  | .aslAbs a => Sys2Proof.Machine.execAslAbs a s
  | .oraLong l => Sys2Proof.Machine.execOraLong l s
  | .bpl r => Sys2Proof.Machine.execBpl r s
  | .oraDirIndY o => Sys2Proof.Machine.execOraDirIndY o s
  | .oraDirInd o => Sys2Proof.Machine.execOraDirInd o s
  | .oraStkIndY o => Sys2Proof.Machine.execOraStkIndY o s
  | .trbDir o => Sys2Proof.Machine.execTrbDir o s
  | .oraDirX o => Sys2Proof.Machine.execOraDirX o s
  | .aslDirX o => Sys2Proof.Machine.execAslDirX o s
  | .oraDirLongY o => Sys2Proof.Machine.execOraDirLongY o s
  | .clc => Sys2Proof.Machine.execClc s
  | .oraAbsY a => Sys2Proof.Machine.execOraAbsY a s
  | .incAcc => Sys2Proof.Machine.execIncAcc s
  | .tcs => Sys2Proof.Machine.execTcs s
  | .trbAbs a => Sys2Proof.Machine.execTrbAbs a s
  | .oraAbsX a => Sys2Proof.Machine.execOraAbsX a s
  | .aslAbsX a => Sys2Proof.Machine.execAslAbsX a s
  | .oraLongX l => Sys2Proof.Machine.execOraLongX l s
  | .jsrAbs a => Sys2Proof.Machine.execJsrAbs a s
  | .andDirXInd o => Sys2Proof.Machine.execAndDirXInd o s
  | .jsl l => Sys2Proof.Machine.execJsl l s
  | .andStk o => Sys2Proof.Machine.execAndStk o s
  | .bitDir o => Sys2Proof.Machine.execBitDir o s
  | .andDir o => Sys2Proof.Machine.execAndDir o s
  | .rolDir o => Sys2Proof.Machine.execRolDir o s
  | .andDirLong o => Sys2Proof.Machine.execAndDirLong o s
  | .plp => Sys2Proof.Machine.execPlp s
  | .andImm v => Sys2Proof.Machine.execAndImm v s
  | .rolAcc => Sys2Proof.Machine.execRolAcc s
  | .pld => Sys2Proof.Machine.execPld s
  | .bitAbs a => Sys2Proof.Machine.execBitAbs a s
  | .andAbs a => Sys2Proof.Machine.execAndAbs a s
  | .rolAbs a => Sys2Proof.Machine.execRolAbs a s
  | .andLong l => Sys2Proof.Machine.execAndLong l s
  | .bmi r => Sys2Proof.Machine.execBmi r s
  | .andDirIndY o => Sys2Proof.Machine.execAndDirIndY o s
  | .andDirInd o => Sys2Proof.Machine.execAndDirInd o s
  | .andStkIndY o => Sys2Proof.Machine.execAndStkIndY o s
  | .bitDirX o => Sys2Proof.Machine.execBitDirX o s
  | .andDirX o => Sys2Proof.Machine.execAndDirX o s
  | .rolDirX o => Sys2Proof.Machine.execRolDirX o s
  | .andDirLongY o => Sys2Proof.Machine.execAndDirLongY o s
  | .sec => Sys2Proof.Machine.execSec s
  | .andAbsY a => Sys2Proof.Machine.execAndAbsY a s
  | .decAcc => Sys2Proof.Machine.execDecAcc s
  | .tsc => Sys2Proof.Machine.execTsc s
  | .bitAbsX a => Sys2Proof.Machine.execBitAbsX a s
  | .andAbsX a => Sys2Proof.Machine.execAndAbsX a s
  | .rolAbsX a => Sys2Proof.Machine.execRolAbsX a s
  | .andLongX l => Sys2Proof.Machine.execAndLongX l s
  | .rti => Sys2Proof.Machine.execRti s
  | .eorDirXInd o => Sys2Proof.Machine.execEorDirXInd o s
  | .wdm sig => Sys2Proof.Machine.execWdm sig s
  | .eorStk o => Sys2Proof.Machine.execEorStk o s
  | .mvp dst src => Sys2Proof.Machine.execMvp dst src s
  | .eorDir o => Sys2Proof.Machine.execEorDir o s
  | .lsrDir o => Sys2Proof.Machine.execLsrDir o s
  | .eorDirLong o => Sys2Proof.Machine.execEorDirLong o s
  | .pha => Sys2Proof.Machine.execPha s
  | .eorImm v => Sys2Proof.Machine.execEorImm v s
  | .lsrAcc => Sys2Proof.Machine.execLsrAcc s
  | .phk => Sys2Proof.Machine.execPhk s
  | .jmpAbs a => Sys2Proof.Machine.execJmpAbs a s
  | .eorAbs a => Sys2Proof.Machine.execEorAbs a s
  | .lsrAbs a => Sys2Proof.Machine.execLsrAbs a s
  | .eorLong l => Sys2Proof.Machine.execEorLong l s
  | .bvc r => Sys2Proof.Machine.execBvc r s
  | .eorDirIndY o => Sys2Proof.Machine.execEorDirIndY o s
  | .eorDirInd o => Sys2Proof.Machine.execEorDirInd o s
  | .eorStkIndY o => Sys2Proof.Machine.execEorStkIndY o s
  | .mvn dst src => Sys2Proof.Machine.execMvn dst src s
  | .eorDirX o => Sys2Proof.Machine.execEorDirX o s
  | .lsrDirX o => Sys2Proof.Machine.execLsrDirX o s
  | .eorDirLongY o => Sys2Proof.Machine.execEorDirLongY o s
  | .cli => Sys2Proof.Machine.execCli s
  | .eorAbsY a => Sys2Proof.Machine.execEorAbsY a s
  | .phy => Sys2Proof.Machine.execPhy s
  | .tcd => Sys2Proof.Machine.execTcd s
  | .jmlLong l => Sys2Proof.Machine.execJmlLong l s
  | .eorAbsX a => Sys2Proof.Machine.execEorAbsX a s
  | .lsrAbsX a => Sys2Proof.Machine.execLsrAbsX a s
  | .eorLongX l => Sys2Proof.Machine.execEorLongX l s
  | .rts => Sys2Proof.Machine.execRts s
  | .adcDirXInd o => Sys2Proof.Machine.execAdcDirXInd o s
  | .per r => Sys2Proof.Machine.execPer r s
  | .adcStk o => Sys2Proof.Machine.execAdcStk o s
  | .stzDir o => Sys2Proof.Machine.execStzDir o s
  | .adcDir o => Sys2Proof.Machine.execAdcDir o s
  | .rorDir o => Sys2Proof.Machine.execRorDir o s
  | .adcDirLong o => Sys2Proof.Machine.execAdcDirLong o s
  | .pla => Sys2Proof.Machine.execPla s
  | .adcImm v => Sys2Proof.Machine.execAdcImm v s
  | .rorAcc => Sys2Proof.Machine.execRorAcc s
  | .rtl => Sys2Proof.Machine.execRtl s
  | .jmpAbsInd a => Sys2Proof.Machine.execJmpAbsInd a s
  | .adcAbs a => Sys2Proof.Machine.execAdcAbs a s
  | .rorAbs a => Sys2Proof.Machine.execRorAbs a s
  | .adcLong l => Sys2Proof.Machine.execAdcLong l s
  | .bvs r => Sys2Proof.Machine.execBvs r s
  | .adcDirIndY o => Sys2Proof.Machine.execAdcDirIndY o s
  | .adcDirInd o => Sys2Proof.Machine.execAdcDirInd o s
  | .adcStkIndY o => Sys2Proof.Machine.execAdcStkIndY o s
  | .stzDirX o => Sys2Proof.Machine.execStzDirX o s
  | .adcDirX o => Sys2Proof.Machine.execAdcDirX o s
  | .rorDirX o => Sys2Proof.Machine.execRorDirX o s
  | .adcDirLongY o => Sys2Proof.Machine.execAdcDirLongY o s
  | .sei => Sys2Proof.Machine.execSei s
  | .adcAbsY a => Sys2Proof.Machine.execAdcAbsY a s
  | .ply => Sys2Proof.Machine.execPly s
  | .tdc => Sys2Proof.Machine.execTdc s
  | .jmpAbsXInd a => Sys2Proof.Machine.execJmpAbsXInd a s
  | .adcAbsX a => Sys2Proof.Machine.execAdcAbsX a s
  | .rorAbsX a => Sys2Proof.Machine.execRorAbsX a s
  | .adcLongX l => Sys2Proof.Machine.execAdcLongX l s
  | .bra r => Sys2Proof.Machine.execBra r s
  | .staDirXInd o => Sys2Proof.Machine.execStaDirXInd o s
  | .brl r => Sys2Proof.Machine.execBrl r s
  | .staStk o => Sys2Proof.Machine.execStaStk o s
  | .styDir o => Sys2Proof.Machine.execStyDir o s
  | .staDir o => Sys2Proof.Machine.execStaDir o s
  | .stxDir o => Sys2Proof.Machine.execStxDir o s
  | .staDirLong o => Sys2Proof.Machine.execStaDirLong o s
  | .dey => Sys2Proof.Machine.execDey s
  | .bitImm v => Sys2Proof.Machine.execBitImm v s
  | .txa => Sys2Proof.Machine.execTxa s
  | .phb => Sys2Proof.Machine.execPhb s
  | .styAbs a => Sys2Proof.Machine.execStyAbs a s
  | .staAbs a => Sys2Proof.Machine.execStaAbs a s
  | .stxAbs a => Sys2Proof.Machine.execStxAbs a s
  | .staLong l => Sys2Proof.Machine.execStaLong l s
  | .bcc r => Sys2Proof.Machine.execBcc r s
  | .staDirIndY o => Sys2Proof.Machine.execStaDirIndY o s
  | .staDirInd o => Sys2Proof.Machine.execStaDirInd o s
  | .staStkIndY o => Sys2Proof.Machine.execStaStkIndY o s
  | .styDirX o => Sys2Proof.Machine.execStyDirX o s
  | .staDirX o => Sys2Proof.Machine.execStaDirX o s
  | .stxDirY o => Sys2Proof.Machine.execStxDirY o s
  | .staDirLongY o => Sys2Proof.Machine.execStaDirLongY o s
  | .tya => Sys2Proof.Machine.execTya s
  | .staAbsY a => Sys2Proof.Machine.execStaAbsY a s
  | .txs => Sys2Proof.Machine.execTxs s
  | .txy => Sys2Proof.Machine.execTxy s
  | .stzAbs a => Sys2Proof.Machine.execStzAbs a s
  | .staAbsX a => Sys2Proof.Machine.execStaAbsX a s
  | .stzAbsX a => Sys2Proof.Machine.execStzAbsX a s
  | .staLongX l => Sys2Proof.Machine.execStaLongX l s
  | .ldyImm v => Sys2Proof.Machine.execLdyImm v s
  | .ldaDirXInd o => Sys2Proof.Machine.execLdaDirXInd o s
  | .ldxImm v => Sys2Proof.Machine.execLdxImm v s
  | .ldaStk o => Sys2Proof.Machine.execLdaStk o s
  | .ldyDir o => Sys2Proof.Machine.execLdyDir o s
  | .ldaDir o => Sys2Proof.Machine.execLdaDir o s
  | .ldxDir o => Sys2Proof.Machine.execLdxDir o s
  | .ldaDirLong o => Sys2Proof.Machine.execLdaDirLong o s
  | .tay => Sys2Proof.Machine.execTay s
  | .ldaImm v => Sys2Proof.Machine.execLdaImm v s
  | .tax => Sys2Proof.Machine.execTax s
  | .plb => Sys2Proof.Machine.execPlb s
  | .ldyAbs a => Sys2Proof.Machine.execLdyAbs a s
  | .ldaAbs a => Sys2Proof.Machine.execLdaAbs a s
  | .ldxAbs a => Sys2Proof.Machine.execLdxAbs a s
  | .ldaLong l => Sys2Proof.Machine.execLdaLong l s
  | .bcs r => Sys2Proof.Machine.execBcs r s
  | .ldaDirIndY o => Sys2Proof.Machine.execLdaDirIndY o s
  | .ldaDirInd o => Sys2Proof.Machine.execLdaDirInd o s
  | .ldaStkIndY o => Sys2Proof.Machine.execLdaStkIndY o s
  | .ldyDirX o => Sys2Proof.Machine.execLdyDirX o s
  | .ldaDirX o => Sys2Proof.Machine.execLdaDirX o s
  | .ldxDirY o => Sys2Proof.Machine.execLdxDirY o s
  | .ldaDirLongY o => Sys2Proof.Machine.execLdaDirLongY o s
  | .clv => Sys2Proof.Machine.execClv s
  | .ldaAbsY a => Sys2Proof.Machine.execLdaAbsY a s
  | .tsx => Sys2Proof.Machine.execTsx s
  | .tyx => Sys2Proof.Machine.execTyx s
  | .ldyAbsX a => Sys2Proof.Machine.execLdyAbsX a s
  | .ldaAbsX a => Sys2Proof.Machine.execLdaAbsX a s
  | .ldxAbsY a => Sys2Proof.Machine.execLdxAbsY a s
  | .ldaLongX l => Sys2Proof.Machine.execLdaLongX l s
  | .cpyImm v => Sys2Proof.Machine.execCpyImm v s
  | .cmpDirXInd o => Sys2Proof.Machine.execCmpDirXInd o s
  | .rep mask => Sys2Proof.Machine.execRep mask s
  | .cmpStk o => Sys2Proof.Machine.execCmpStk o s
  | .cpyDir o => Sys2Proof.Machine.execCpyDir o s
  | .cmpDir o => Sys2Proof.Machine.execCmpDir o s
  | .decDir o => Sys2Proof.Machine.execDecDir o s
  | .cmpDirLong o => Sys2Proof.Machine.execCmpDirLong o s
  | .iny => Sys2Proof.Machine.execIny s
  | .cmpImm v => Sys2Proof.Machine.execCmpImm v s
  | .dex => Sys2Proof.Machine.execDex s
  | .wai => Sys2Proof.Machine.execWai s
  | .cpyAbs a => Sys2Proof.Machine.execCpyAbs a s
  | .cmpAbs a => Sys2Proof.Machine.execCmpAbs a s
  | .decAbs a => Sys2Proof.Machine.execDecAbs a s
  | .cmpLong l => Sys2Proof.Machine.execCmpLong l s
  | .bne r => Sys2Proof.Machine.execBne r s
  | .cmpDirIndY o => Sys2Proof.Machine.execCmpDirIndY o s
  | .cmpDirInd o => Sys2Proof.Machine.execCmpDirInd o s
  | .cmpStkIndY o => Sys2Proof.Machine.execCmpStkIndY o s
  | .pei o => Sys2Proof.Machine.execPei o s
  | .cmpDirX o => Sys2Proof.Machine.execCmpDirX o s
  | .decDirX o => Sys2Proof.Machine.execDecDirX o s
  | .cmpDirLongY o => Sys2Proof.Machine.execCmpDirLongY o s
  | .cld => Sys2Proof.Machine.execCld s
  | .cmpAbsY a => Sys2Proof.Machine.execCmpAbsY a s
  | .phx => Sys2Proof.Machine.execPhx s
  | .stp => Sys2Proof.Machine.execStp s
  | .jmlAbsLong a => Sys2Proof.Machine.execJmlAbsLong a s
  | .cmpAbsX a => Sys2Proof.Machine.execCmpAbsX a s
  | .decAbsX a => Sys2Proof.Machine.execDecAbsX a s
  | .cmpLongX l => Sys2Proof.Machine.execCmpLongX l s
  | .cpxImm v => Sys2Proof.Machine.execCpxImm v s
  | .sbcDirXInd o => Sys2Proof.Machine.execSbcDirXInd o s
  | .sep mask => Sys2Proof.Machine.execSep mask s
  | .sbcStk o => Sys2Proof.Machine.execSbcStk o s
  | .cpxDir o => Sys2Proof.Machine.execCpxDir o s
  | .sbcDir o => Sys2Proof.Machine.execSbcDir o s
  | .incDir o => Sys2Proof.Machine.execIncDir o s
  | .sbcDirLong o => Sys2Proof.Machine.execSbcDirLong o s
  | .inx => Sys2Proof.Machine.execInx s
  | .sbcImm v => Sys2Proof.Machine.execSbcImm v s
  | .nop => Sys2Proof.Machine.execNop s
  | .xba => Sys2Proof.Machine.execXba s
  | .cpxAbs a => Sys2Proof.Machine.execCpxAbs a s
  | .sbcAbs a => Sys2Proof.Machine.execSbcAbs a s
  | .incAbs a => Sys2Proof.Machine.execIncAbs a s
  | .sbcLong l => Sys2Proof.Machine.execSbcLong l s
  | .beq r => Sys2Proof.Machine.execBeq r s
  | .sbcDirIndY o => Sys2Proof.Machine.execSbcDirIndY o s
  | .sbcDirInd o => Sys2Proof.Machine.execSbcDirInd o s
  | .sbcStkIndY o => Sys2Proof.Machine.execSbcStkIndY o s
  | .pea v => Sys2Proof.Machine.execPea v s
  | .sbcDirX o => Sys2Proof.Machine.execSbcDirX o s
  | .incDirX o => Sys2Proof.Machine.execIncDirX o s
  | .sbcDirLongY o => Sys2Proof.Machine.execSbcDirLongY o s
  | .sed => Sys2Proof.Machine.execSed s
  | .sbcAbsY a => Sys2Proof.Machine.execSbcAbsY a s
  | .plx => Sys2Proof.Machine.execPlx s
  | .xce => Sys2Proof.Machine.execXce s
  | .jsrAbsXInd a => Sys2Proof.Machine.execJsrAbsXInd a s
  | .sbcAbsX a => Sys2Proof.Machine.execSbcAbsX a s
  | .incAbsX a => Sys2Proof.Machine.execIncAbsX a s
  | .sbcLongX l => Sys2Proof.Machine.execSbcLongX l s

end Sys2Proof.Machine
end

