-- ==== Sys2Proof/WellFormed.lean ====
section
/-! DEFINITION. Which instructions have an encoding at the current widths (spec/30_encoding.md R82, R83). Every
operand byte is unconstrained (R92); the only check is that the immediate of one of the twelve opcodes whose length
depends on P.m or P.x fits in the one operand byte it has when the flag is 1. -/

namespace Sys2Proof

open Machine

/-- A value that the immediate of a flag's width can hold: when the flag is 1 the operand is one byte (R83). -/
def immFits (flag : Bool) (v : Word) : Bool := !flag || decide (highByte v = 0x00)

/-- The instruction has an encoding when `P.m = m` and `P.x = x`. -/
def Instr.wellFormed (m x : Bool) : Instr → Bool
  | .oraImm v => immFits m v
  | .andImm v => immFits m v
  | .eorImm v => immFits m v
  | .adcImm v => immFits m v
  | .bitImm v => immFits m v
  | .ldyImm v => immFits x v
  | .ldxImm v => immFits x v
  | .ldaImm v => immFits m v
  | .cpyImm v => immFits x v
  | .cmpImm v => immFits m v
  | .cpxImm v => immFits x v
  | .sbcImm v => immFits m v
  | .brk _ | .oraDirXInd _ | .cop _ | .oraStk _ | .tsbDir _ | .oraDir _ | .aslDir _ | .oraDirLong _ | .php
  | .aslAcc | .phd | .tsbAbs _ | .oraAbs _ | .aslAbs _ | .oraLong _ | .bpl _ | .oraDirIndY _ | .oraDirInd _
  | .oraStkIndY _ | .trbDir _ | .oraDirX _ | .aslDirX _ | .oraDirLongY _ | .clc | .oraAbsY _ | .incAcc | .tcs
  | .trbAbs _ | .oraAbsX _ | .aslAbsX _ | .oraLongX _ | .jsrAbs _ | .andDirXInd _ | .jsl _ | .andStk _
  | .bitDir _ | .andDir _ | .rolDir _ | .andDirLong _ | .plp | .rolAcc | .pld | .bitAbs _ | .andAbs _
  | .rolAbs _ | .andLong _ | .bmi _ | .andDirIndY _ | .andDirInd _ | .andStkIndY _ | .bitDirX _ | .andDirX _
  | .rolDirX _ | .andDirLongY _ | .sec | .andAbsY _ | .decAcc | .tsc | .bitAbsX _ | .andAbsX _ | .rolAbsX _
  | .andLongX _ | .rti | .eorDirXInd _ | .wdm _ | .eorStk _ | .mvp _ _ | .eorDir _ | .lsrDir _ | .eorDirLong _
  | .pha | .lsrAcc | .phk | .jmpAbs _ | .eorAbs _ | .lsrAbs _ | .eorLong _ | .bvc _ | .eorDirIndY _
  | .eorDirInd _ | .eorStkIndY _ | .mvn _ _ | .eorDirX _ | .lsrDirX _ | .eorDirLongY _ | .cli | .eorAbsY _
  | .phy | .tcd | .jmlLong _ | .eorAbsX _ | .lsrAbsX _ | .eorLongX _ | .rts | .adcDirXInd _ | .per _
  | .adcStk _ | .stzDir _ | .adcDir _ | .rorDir _ | .adcDirLong _ | .pla | .rorAcc | .rtl | .jmpAbsInd _
  | .adcAbs _ | .rorAbs _ | .adcLong _ | .bvs _ | .adcDirIndY _ | .adcDirInd _ | .adcStkIndY _ | .stzDirX _
  | .adcDirX _ | .rorDirX _ | .adcDirLongY _ | .sei | .adcAbsY _ | .ply | .tdc | .jmpAbsXInd _ | .adcAbsX _
  | .rorAbsX _ | .adcLongX _ | .bra _ | .staDirXInd _ | .brl _ | .staStk _ | .styDir _ | .staDir _ | .stxDir _
  | .staDirLong _ | .dey | .txa | .phb | .styAbs _ | .staAbs _ | .stxAbs _ | .staLong _ | .bcc _
  | .staDirIndY _ | .staDirInd _ | .staStkIndY _ | .styDirX _ | .staDirX _ | .stxDirY _ | .staDirLongY _ | .tya
  | .staAbsY _ | .txs | .txy | .stzAbs _ | .staAbsX _ | .stzAbsX _ | .staLongX _ | .ldaDirXInd _ | .ldaStk _
  | .ldyDir _ | .ldaDir _ | .ldxDir _ | .ldaDirLong _ | .tay | .tax | .plb | .ldyAbs _ | .ldaAbs _ | .ldxAbs _
  | .ldaLong _ | .bcs _ | .ldaDirIndY _ | .ldaDirInd _ | .ldaStkIndY _ | .ldyDirX _ | .ldaDirX _ | .ldxDirY _
  | .ldaDirLongY _ | .clv | .ldaAbsY _ | .tsx | .tyx | .ldyAbsX _ | .ldaAbsX _ | .ldxAbsY _ | .ldaLongX _
  | .cmpDirXInd _ | .rep _ | .cmpStk _ | .cpyDir _ | .cmpDir _ | .decDir _ | .cmpDirLong _ | .iny | .dex | .wai
  | .cpyAbs _ | .cmpAbs _ | .decAbs _ | .cmpLong _ | .bne _ | .cmpDirIndY _ | .cmpDirInd _ | .cmpStkIndY _
  | .pei _ | .cmpDirX _ | .decDirX _ | .cmpDirLongY _ | .cld | .cmpAbsY _ | .phx | .stp | .jmlAbsLong _
  | .cmpAbsX _ | .decAbsX _ | .cmpLongX _ | .sbcDirXInd _ | .sep _ | .sbcStk _ | .cpxDir _ | .sbcDir _
  | .incDir _ | .sbcDirLong _ | .inx | .nop | .xba | .cpxAbs _ | .sbcAbs _ | .incAbs _ | .sbcLong _ | .beq _
  | .sbcDirIndY _ | .sbcDirInd _ | .sbcStkIndY _ | .pea _ | .sbcDirX _ | .incDirX _ | .sbcDirLongY _ | .sed
  | .sbcAbsY _ | .plx | .xce | .jsrAbsXInd _ | .sbcAbsX _ | .incAbsX _ | .sbcLongX _ => true

end Sys2Proof
end

