-- ==== Sys2Proof/Decode.lean ====
section
/-! DEFINITION. The decoder and the encoder (spec/30_encoding.md R80 to R93). The opcode byte alone selects the
instruction; only the length of the twelve immediates depends on the flags m and x (R83, R93). All 256 opcodes are
defined and operand bytes are unconstrained (R84, R92), so decoding refuses nothing but bytes that end too early. -/

namespace Sys2Proof

open Machine

/-- The operand bytes an opcode takes (R82), and the instruction they make. -/
inductive Form where
  /-- No operand byte: imp, acc. -/
  | implied (i : Instr)
  /-- One byte: the direct and stack families, rel8, imm8. -/
  | byte (f : Byte → Instr)
  /-- Two bytes, low first: the absolute family, rel16, imm16. -/
  | word (f : Word → Instr)
  /-- Three bytes, low first: long, long,X. -/
  | long (f : Addr → Instr)
  /-- imm_m: one byte if P.m = 1, else two (R83). -/
  | immM (f : Word → Instr)
  /-- imm_x: one byte if P.x = 1, else two (R83). -/
  | immX (f : Word → Instr)
  /-- src,dest: the destination bank, then the source bank (R89). -/
  | banks (f : Byte → Byte → Instr)

/-- Opcodes $00 to $0F, a row of the matrix of R85. -/
def opcodeRow0 : List Form := [
  .byte .brk, .byte .oraDirXInd, .byte .cop, .byte .oraStk, .byte .tsbDir, .byte .oraDir, .byte .aslDir,
  .byte .oraDirLong, .implied .php, .immM .oraImm, .implied .aslAcc, .implied .phd, .word .tsbAbs,
  .word .oraAbs, .word .aslAbs, .long .oraLong]

/-- Opcodes $10 to $1F, a row of the matrix of R85. -/
def opcodeRow1 : List Form := [
  .byte .bpl, .byte .oraDirIndY, .byte .oraDirInd, .byte .oraStkIndY, .byte .trbDir, .byte .oraDirX,
  .byte .aslDirX, .byte .oraDirLongY, .implied .clc, .word .oraAbsY, .implied .incAcc, .implied .tcs,
  .word .trbAbs, .word .oraAbsX, .word .aslAbsX, .long .oraLongX]

/-- Opcodes $20 to $2F, a row of the matrix of R85. -/
def opcodeRow2 : List Form := [
  .word .jsrAbs, .byte .andDirXInd, .long .jsl, .byte .andStk, .byte .bitDir, .byte .andDir, .byte .rolDir,
  .byte .andDirLong, .implied .plp, .immM .andImm, .implied .rolAcc, .implied .pld, .word .bitAbs,
  .word .andAbs, .word .rolAbs, .long .andLong]

/-- Opcodes $30 to $3F, a row of the matrix of R85. -/
def opcodeRow3 : List Form := [
  .byte .bmi, .byte .andDirIndY, .byte .andDirInd, .byte .andStkIndY, .byte .bitDirX, .byte .andDirX,
  .byte .rolDirX, .byte .andDirLongY, .implied .sec, .word .andAbsY, .implied .decAcc, .implied .tsc,
  .word .bitAbsX, .word .andAbsX, .word .rolAbsX, .long .andLongX]

/-- Opcodes $40 to $4F, a row of the matrix of R85. -/
def opcodeRow4 : List Form := [
  .implied .rti, .byte .eorDirXInd, .byte .wdm, .byte .eorStk, .banks .mvp, .byte .eorDir, .byte .lsrDir,
  .byte .eorDirLong, .implied .pha, .immM .eorImm, .implied .lsrAcc, .implied .phk, .word .jmpAbs,
  .word .eorAbs, .word .lsrAbs, .long .eorLong]

/-- Opcodes $50 to $5F, a row of the matrix of R85. -/
def opcodeRow5 : List Form := [
  .byte .bvc, .byte .eorDirIndY, .byte .eorDirInd, .byte .eorStkIndY, .banks .mvn, .byte .eorDirX,
  .byte .lsrDirX, .byte .eorDirLongY, .implied .cli, .word .eorAbsY, .implied .phy, .implied .tcd,
  .long .jmlLong, .word .eorAbsX, .word .lsrAbsX, .long .eorLongX]

/-- Opcodes $60 to $6F, a row of the matrix of R85. -/
def opcodeRow6 : List Form := [
  .implied .rts, .byte .adcDirXInd, .word .per, .byte .adcStk, .byte .stzDir, .byte .adcDir, .byte .rorDir,
  .byte .adcDirLong, .implied .pla, .immM .adcImm, .implied .rorAcc, .implied .rtl, .word .jmpAbsInd,
  .word .adcAbs, .word .rorAbs, .long .adcLong]

/-- Opcodes $70 to $7F, a row of the matrix of R85. -/
def opcodeRow7 : List Form := [
  .byte .bvs, .byte .adcDirIndY, .byte .adcDirInd, .byte .adcStkIndY, .byte .stzDirX, .byte .adcDirX,
  .byte .rorDirX, .byte .adcDirLongY, .implied .sei, .word .adcAbsY, .implied .ply, .implied .tdc,
  .word .jmpAbsXInd, .word .adcAbsX, .word .rorAbsX, .long .adcLongX]

/-- Opcodes $80 to $8F, a row of the matrix of R85. -/
def opcodeRow8 : List Form := [
  .byte .bra, .byte .staDirXInd, .word .brl, .byte .staStk, .byte .styDir, .byte .staDir, .byte .stxDir,
  .byte .staDirLong, .implied .dey, .immM .bitImm, .implied .txa, .implied .phb, .word .styAbs, .word .staAbs,
  .word .stxAbs, .long .staLong]

/-- Opcodes $90 to $9F, a row of the matrix of R85. -/
def opcodeRow9 : List Form := [
  .byte .bcc, .byte .staDirIndY, .byte .staDirInd, .byte .staStkIndY, .byte .styDirX, .byte .staDirX,
  .byte .stxDirY, .byte .staDirLongY, .implied .tya, .word .staAbsY, .implied .txs, .implied .txy,
  .word .stzAbs, .word .staAbsX, .word .stzAbsX, .long .staLongX]

/-- Opcodes $A0 to $AF, a row of the matrix of R85. -/
def opcodeRowA : List Form := [
  .immX .ldyImm, .byte .ldaDirXInd, .immX .ldxImm, .byte .ldaStk, .byte .ldyDir, .byte .ldaDir, .byte .ldxDir,
  .byte .ldaDirLong, .implied .tay, .immM .ldaImm, .implied .tax, .implied .plb, .word .ldyAbs, .word .ldaAbs,
  .word .ldxAbs, .long .ldaLong]

/-- Opcodes $B0 to $BF, a row of the matrix of R85. -/
def opcodeRowB : List Form := [
  .byte .bcs, .byte .ldaDirIndY, .byte .ldaDirInd, .byte .ldaStkIndY, .byte .ldyDirX, .byte .ldaDirX,
  .byte .ldxDirY, .byte .ldaDirLongY, .implied .clv, .word .ldaAbsY, .implied .tsx, .implied .tyx,
  .word .ldyAbsX, .word .ldaAbsX, .word .ldxAbsY, .long .ldaLongX]

/-- Opcodes $C0 to $CF, a row of the matrix of R85. -/
def opcodeRowC : List Form := [
  .immX .cpyImm, .byte .cmpDirXInd, .byte .rep, .byte .cmpStk, .byte .cpyDir, .byte .cmpDir, .byte .decDir,
  .byte .cmpDirLong, .implied .iny, .immM .cmpImm, .implied .dex, .implied .wai, .word .cpyAbs, .word .cmpAbs,
  .word .decAbs, .long .cmpLong]

/-- Opcodes $D0 to $DF, a row of the matrix of R85. -/
def opcodeRowD : List Form := [
  .byte .bne, .byte .cmpDirIndY, .byte .cmpDirInd, .byte .cmpStkIndY, .byte .pei, .byte .cmpDirX,
  .byte .decDirX, .byte .cmpDirLongY, .implied .cld, .word .cmpAbsY, .implied .phx, .implied .stp,
  .word .jmlAbsLong, .word .cmpAbsX, .word .decAbsX, .long .cmpLongX]

/-- Opcodes $E0 to $EF, a row of the matrix of R85. -/
def opcodeRowE : List Form := [
  .immX .cpxImm, .byte .sbcDirXInd, .byte .sep, .byte .sbcStk, .byte .cpxDir, .byte .sbcDir, .byte .incDir,
  .byte .sbcDirLong, .implied .inx, .immM .sbcImm, .implied .nop, .implied .xba, .word .cpxAbs, .word .sbcAbs,
  .word .incAbs, .long .sbcLong]

/-- Opcodes $F0 to $FF, a row of the matrix of R85. -/
def opcodeRowF : List Form := [
  .byte .beq, .byte .sbcDirIndY, .byte .sbcDirInd, .byte .sbcStkIndY, .word .pea, .byte .sbcDirX,
  .byte .incDirX, .byte .sbcDirLongY, .implied .sed, .word .sbcAbsY, .implied .plx, .implied .xce,
  .word .jsrAbsXInd, .word .sbcAbsX, .word .incAbsX, .long .sbcLongX]

/-- The opcode matrix (R85), 256 cells. -/
def opcodeTable : List Form :=
  opcodeRow0 ++ opcodeRow1 ++ opcodeRow2 ++ opcodeRow3 ++ opcodeRow4 ++ opcodeRow5 ++ opcodeRow6 ++ opcodeRow7 ++
  opcodeRow8 ++ opcodeRow9 ++ opcodeRowA ++ opcodeRowB ++ opcodeRowC ++ opcodeRowD ++ opcodeRowE ++ opcodeRowF

theorem opcodeTable_length : opcodeTable.length = 256 := by decide +kernel

/-- The cell of an opcode: every byte has one (R84). -/
def formOf (op : Byte) : Form :=
  opcodeTable[op.toNat]'(by rw [opcodeTable_length]; exact op.isLt)

/-- The number of operand bytes (R82, R83). -/
def operandBytes (m x : Bool) : Form → Nat
  | .implied _ => 0
  | .byte _ => 1
  | .word _ | .banks _ => 2
  | .long _ => 3
  | .immM _ => if m then 1 else 2
  | .immX _ => if x then 1 else 2

/-- The value of an immediate whose width a flag chooses (R83, R87). -/
def immValue (flag : Bool) (o1 o2 : Byte) : Word := if flag then extendByte o1 else joinBytes o2 o1

/-- The instruction of an opcode and its operand bytes; a byte beyond the instruction's length is not used. -/
def instrOf (m x : Bool) (op o1 o2 o3 : Byte) : Instr :=
  match formOf op with
  | .implied i => i
  | .byte f => f o1
  | .word f => f (joinBytes o2 o1)
  | .long f => f (bankAddr o3 (joinBytes o2 o1))
  | .immM f => f (immValue m o1 o2)
  | .immX f => f (immValue x o1 o2)
  | .banks f => f o1 o2

/-- The length of an instruction in bytes, the opcode included (R82, R83, R93). -/
def instrLength (m x : Bool) (op : Byte) : Nat := 1 + operandBytes m x (formOf op)

/-- Why bytes do not decode. -/
inductive DecodeError where
  /-- There is no opcode byte. -/
  | noOpcode
  /-- The operand bytes of this opcode end too early. -/
  | truncated (op : Byte)
  deriving DecidableEq, Repr

/-- The instruction at the front of a list of bytes and the bytes after it, when `P.m = m` and `P.x = x`. -/
def decode (m x : Bool) : List Byte → Except DecodeError (Instr × List Byte)
  | [] => .error .noOpcode
  | op :: rest =>
    if rest.length < operandBytes m x (formOf op) then .error (.truncated op)
    else .ok (instrOf m x op (rest.getD 0 0) (rest.getD 1 0) (rest.getD 2 0),
      rest.drop (operandBytes m x (formOf op)))

/-- Two operand bytes, low first (R50, R87). -/
def wordBytes (v : Word) : List Byte := [lowByte v, highByte v]

/-- Three operand bytes, low first (R50, R87). -/
def longBytes (l : Addr) : List Byte := [lowByte (offsetOf l), highByte (offsetOf l), bankOf l]

/-- The operand bytes of an immediate whose width a flag chooses (R83). -/
def immBytes (flag : Bool) (v : Word) : List Byte := if flag then [lowByte v] else wordBytes v

/-- The bytes of an instruction, first byte first, when `P.m = m` and `P.x = x` (R80, R82, R86). -/
def encode (m x : Bool) : Instr → List Byte
  | .brk sig => [0x00, sig]
  | .oraDirXInd o => [0x01, o]
  | .cop sig => [0x02, sig]
  | .oraStk o => [0x03, o]
  | .tsbDir o => [0x04, o]
  | .oraDir o => [0x05, o]
  | .aslDir o => [0x06, o]
  | .oraDirLong o => [0x07, o]
  | .php => [0x08]
  | .oraImm v => 0x09 :: immBytes m v
  | .aslAcc => [0x0A]
  | .phd => [0x0B]
  | .tsbAbs a => 0x0C :: wordBytes a
  | .oraAbs a => 0x0D :: wordBytes a
  | .aslAbs a => 0x0E :: wordBytes a
  | .oraLong l => 0x0F :: longBytes l
  | .bpl r => [0x10, r]
  | .oraDirIndY o => [0x11, o]
  | .oraDirInd o => [0x12, o]
  | .oraStkIndY o => [0x13, o]
  | .trbDir o => [0x14, o]
  | .oraDirX o => [0x15, o]
  | .aslDirX o => [0x16, o]
  | .oraDirLongY o => [0x17, o]
  | .clc => [0x18]
  | .oraAbsY a => 0x19 :: wordBytes a
  | .incAcc => [0x1A]
  | .tcs => [0x1B]
  | .trbAbs a => 0x1C :: wordBytes a
  | .oraAbsX a => 0x1D :: wordBytes a
  | .aslAbsX a => 0x1E :: wordBytes a
  | .oraLongX l => 0x1F :: longBytes l
  | .jsrAbs a => 0x20 :: wordBytes a
  | .andDirXInd o => [0x21, o]
  | .jsl l => 0x22 :: longBytes l
  | .andStk o => [0x23, o]
  | .bitDir o => [0x24, o]
  | .andDir o => [0x25, o]
  | .rolDir o => [0x26, o]
  | .andDirLong o => [0x27, o]
  | .plp => [0x28]
  | .andImm v => 0x29 :: immBytes m v
  | .rolAcc => [0x2A]
  | .pld => [0x2B]
  | .bitAbs a => 0x2C :: wordBytes a
  | .andAbs a => 0x2D :: wordBytes a
  | .rolAbs a => 0x2E :: wordBytes a
  | .andLong l => 0x2F :: longBytes l
  | .bmi r => [0x30, r]
  | .andDirIndY o => [0x31, o]
  | .andDirInd o => [0x32, o]
  | .andStkIndY o => [0x33, o]
  | .bitDirX o => [0x34, o]
  | .andDirX o => [0x35, o]
  | .rolDirX o => [0x36, o]
  | .andDirLongY o => [0x37, o]
  | .sec => [0x38]
  | .andAbsY a => 0x39 :: wordBytes a
  | .decAcc => [0x3A]
  | .tsc => [0x3B]
  | .bitAbsX a => 0x3C :: wordBytes a
  | .andAbsX a => 0x3D :: wordBytes a
  | .rolAbsX a => 0x3E :: wordBytes a
  | .andLongX l => 0x3F :: longBytes l
  | .rti => [0x40]
  | .eorDirXInd o => [0x41, o]
  | .wdm sig => [0x42, sig]
  | .eorStk o => [0x43, o]
  | .mvp dst src => [0x44, dst, src]
  | .eorDir o => [0x45, o]
  | .lsrDir o => [0x46, o]
  | .eorDirLong o => [0x47, o]
  | .pha => [0x48]
  | .eorImm v => 0x49 :: immBytes m v
  | .lsrAcc => [0x4A]
  | .phk => [0x4B]
  | .jmpAbs a => 0x4C :: wordBytes a
  | .eorAbs a => 0x4D :: wordBytes a
  | .lsrAbs a => 0x4E :: wordBytes a
  | .eorLong l => 0x4F :: longBytes l
  | .bvc r => [0x50, r]
  | .eorDirIndY o => [0x51, o]
  | .eorDirInd o => [0x52, o]
  | .eorStkIndY o => [0x53, o]
  | .mvn dst src => [0x54, dst, src]
  | .eorDirX o => [0x55, o]
  | .lsrDirX o => [0x56, o]
  | .eorDirLongY o => [0x57, o]
  | .cli => [0x58]
  | .eorAbsY a => 0x59 :: wordBytes a
  | .phy => [0x5A]
  | .tcd => [0x5B]
  | .jmlLong l => 0x5C :: longBytes l
  | .eorAbsX a => 0x5D :: wordBytes a
  | .lsrAbsX a => 0x5E :: wordBytes a
  | .eorLongX l => 0x5F :: longBytes l
  | .rts => [0x60]
  | .adcDirXInd o => [0x61, o]
  | .per r => 0x62 :: wordBytes r
  | .adcStk o => [0x63, o]
  | .stzDir o => [0x64, o]
  | .adcDir o => [0x65, o]
  | .rorDir o => [0x66, o]
  | .adcDirLong o => [0x67, o]
  | .pla => [0x68]
  | .adcImm v => 0x69 :: immBytes m v
  | .rorAcc => [0x6A]
  | .rtl => [0x6B]
  | .jmpAbsInd a => 0x6C :: wordBytes a
  | .adcAbs a => 0x6D :: wordBytes a
  | .rorAbs a => 0x6E :: wordBytes a
  | .adcLong l => 0x6F :: longBytes l
  | .bvs r => [0x70, r]
  | .adcDirIndY o => [0x71, o]
  | .adcDirInd o => [0x72, o]
  | .adcStkIndY o => [0x73, o]
  | .stzDirX o => [0x74, o]
  | .adcDirX o => [0x75, o]
  | .rorDirX o => [0x76, o]
  | .adcDirLongY o => [0x77, o]
  | .sei => [0x78]
  | .adcAbsY a => 0x79 :: wordBytes a
  | .ply => [0x7A]
  | .tdc => [0x7B]
  | .jmpAbsXInd a => 0x7C :: wordBytes a
  | .adcAbsX a => 0x7D :: wordBytes a
  | .rorAbsX a => 0x7E :: wordBytes a
  | .adcLongX l => 0x7F :: longBytes l
  | .bra r => [0x80, r]
  | .staDirXInd o => [0x81, o]
  | .brl r => 0x82 :: wordBytes r
  | .staStk o => [0x83, o]
  | .styDir o => [0x84, o]
  | .staDir o => [0x85, o]
  | .stxDir o => [0x86, o]
  | .staDirLong o => [0x87, o]
  | .dey => [0x88]
  | .bitImm v => 0x89 :: immBytes m v
  | .txa => [0x8A]
  | .phb => [0x8B]
  | .styAbs a => 0x8C :: wordBytes a
  | .staAbs a => 0x8D :: wordBytes a
  | .stxAbs a => 0x8E :: wordBytes a
  | .staLong l => 0x8F :: longBytes l
  | .bcc r => [0x90, r]
  | .staDirIndY o => [0x91, o]
  | .staDirInd o => [0x92, o]
  | .staStkIndY o => [0x93, o]
  | .styDirX o => [0x94, o]
  | .staDirX o => [0x95, o]
  | .stxDirY o => [0x96, o]
  | .staDirLongY o => [0x97, o]
  | .tya => [0x98]
  | .staAbsY a => 0x99 :: wordBytes a
  | .txs => [0x9A]
  | .txy => [0x9B]
  | .stzAbs a => 0x9C :: wordBytes a
  | .staAbsX a => 0x9D :: wordBytes a
  | .stzAbsX a => 0x9E :: wordBytes a
  | .staLongX l => 0x9F :: longBytes l
  | .ldyImm v => 0xA0 :: immBytes x v
  | .ldaDirXInd o => [0xA1, o]
  | .ldxImm v => 0xA2 :: immBytes x v
  | .ldaStk o => [0xA3, o]
  | .ldyDir o => [0xA4, o]
  | .ldaDir o => [0xA5, o]
  | .ldxDir o => [0xA6, o]
  | .ldaDirLong o => [0xA7, o]
  | .tay => [0xA8]
  | .ldaImm v => 0xA9 :: immBytes m v
  | .tax => [0xAA]
  | .plb => [0xAB]
  | .ldyAbs a => 0xAC :: wordBytes a
  | .ldaAbs a => 0xAD :: wordBytes a
  | .ldxAbs a => 0xAE :: wordBytes a
  | .ldaLong l => 0xAF :: longBytes l
  | .bcs r => [0xB0, r]
  | .ldaDirIndY o => [0xB1, o]
  | .ldaDirInd o => [0xB2, o]
  | .ldaStkIndY o => [0xB3, o]
  | .ldyDirX o => [0xB4, o]
  | .ldaDirX o => [0xB5, o]
  | .ldxDirY o => [0xB6, o]
  | .ldaDirLongY o => [0xB7, o]
  | .clv => [0xB8]
  | .ldaAbsY a => 0xB9 :: wordBytes a
  | .tsx => [0xBA]
  | .tyx => [0xBB]
  | .ldyAbsX a => 0xBC :: wordBytes a
  | .ldaAbsX a => 0xBD :: wordBytes a
  | .ldxAbsY a => 0xBE :: wordBytes a
  | .ldaLongX l => 0xBF :: longBytes l
  | .cpyImm v => 0xC0 :: immBytes x v
  | .cmpDirXInd o => [0xC1, o]
  | .rep mask => [0xC2, mask]
  | .cmpStk o => [0xC3, o]
  | .cpyDir o => [0xC4, o]
  | .cmpDir o => [0xC5, o]
  | .decDir o => [0xC6, o]
  | .cmpDirLong o => [0xC7, o]
  | .iny => [0xC8]
  | .cmpImm v => 0xC9 :: immBytes m v
  | .dex => [0xCA]
  | .wai => [0xCB]
  | .cpyAbs a => 0xCC :: wordBytes a
  | .cmpAbs a => 0xCD :: wordBytes a
  | .decAbs a => 0xCE :: wordBytes a
  | .cmpLong l => 0xCF :: longBytes l
  | .bne r => [0xD0, r]
  | .cmpDirIndY o => [0xD1, o]
  | .cmpDirInd o => [0xD2, o]
  | .cmpStkIndY o => [0xD3, o]
  | .pei o => [0xD4, o]
  | .cmpDirX o => [0xD5, o]
  | .decDirX o => [0xD6, o]
  | .cmpDirLongY o => [0xD7, o]
  | .cld => [0xD8]
  | .cmpAbsY a => 0xD9 :: wordBytes a
  | .phx => [0xDA]
  | .stp => [0xDB]
  | .jmlAbsLong a => 0xDC :: wordBytes a
  | .cmpAbsX a => 0xDD :: wordBytes a
  | .decAbsX a => 0xDE :: wordBytes a
  | .cmpLongX l => 0xDF :: longBytes l
  | .cpxImm v => 0xE0 :: immBytes x v
  | .sbcDirXInd o => [0xE1, o]
  | .sep mask => [0xE2, mask]
  | .sbcStk o => [0xE3, o]
  | .cpxDir o => [0xE4, o]
  | .sbcDir o => [0xE5, o]
  | .incDir o => [0xE6, o]
  | .sbcDirLong o => [0xE7, o]
  | .inx => [0xE8]
  | .sbcImm v => 0xE9 :: immBytes m v
  | .nop => [0xEA]
  | .xba => [0xEB]
  | .cpxAbs a => 0xEC :: wordBytes a
  | .sbcAbs a => 0xED :: wordBytes a
  | .incAbs a => 0xEE :: wordBytes a
  | .sbcLong l => 0xEF :: longBytes l
  | .beq r => [0xF0, r]
  | .sbcDirIndY o => [0xF1, o]
  | .sbcDirInd o => [0xF2, o]
  | .sbcStkIndY o => [0xF3, o]
  | .pea v => 0xF4 :: wordBytes v
  | .sbcDirX o => [0xF5, o]
  | .incDirX o => [0xF6, o]
  | .sbcDirLongY o => [0xF7, o]
  | .sed => [0xF8]
  | .sbcAbsY a => 0xF9 :: wordBytes a
  | .plx => [0xFA]
  | .xce => [0xFB]
  | .jsrAbsXInd a => 0xFC :: wordBytes a
  | .sbcAbsX a => 0xFD :: wordBytes a
  | .incAbsX a => 0xFE :: wordBytes a
  | .sbcLongX l => 0xFF :: longBytes l

/-- The four bytes of a word numbered as spec/opcode_table.json numbers it: bit 0 is the least significant bit of the
first byte; bits from `nbits` on are 0. -/
def tableBytes (nbits w : Nat) : List Byte :=
  let v := w % 2 ^ nbits
  [BitVec.ofNat 8 v, BitVec.ofNat 8 (v / 2 ^ 8), BitVec.ofNat 8 (v / 2 ^ 16), BitVec.ofNat 8 (v / 2 ^ 24)]

/-- The instruction the decoder reads from the bits `w`, with the flags m and x as they are after reset, both 1
(R341, log 18). -/
def decodeTableWord (nbits w : Nat) : Option Instr :=
  match decode true true (tableBytes nbits w) with
  | .ok r => some r.1
  | .error _ => none

end Sys2Proof
end

