-- ==== Sys2Proof/Machine/Fetch.lean ====
section
/-! DEFINITION. Fetching an instruction (spec/30_encoding.md R81) and placing one where it is fetched. -/

namespace Sys2Proof.Machine

/-- Byte `n` of the instruction at `PBR:PC`; its address wraps inside the program bank (R81, R17). -/
def instrByte (s : State) (n : Nat) : Byte := s.read (fetchAddr s n)

/-- The length of the instruction at `PBR:PC` (R82, R83, R93). -/
def fetchLength (s : State) : Nat := instrLength (getFlag s.p .m) (getFlag s.p .x) (instrByte s 0)

/-- The bytes of the instruction at `PBR:PC` and no others (R81). -/
def fetchBytes (s : State) : List Byte := (List.range (fetchLength s)).map (instrByte s)

/-- The instruction at `PBR:PC`, with the widths in force now (R81, R83, R93). -/
def fetchInstr (s : State) : Instr :=
  instrOf (getFlag s.p .m) (getFlag s.p .x) (instrByte s 0) (instrByte s 1) (instrByte s 2) (instrByte s 3)

/-- Bytes stored at consecutive addresses of the program bank, from byte `n` of the instruction at `PBR:PC` on. -/
def placeBytes : List Byte → Nat → State → State
  | [], _, s => s
  | b :: rest, n, s => placeBytes rest (n + 1) (s.write (fetchAddr s n) b)

/-- The next step runs the instruction at `PBR:PC`: running, with no input, event or latch that would come first. -/
def readyToRun (s : State) : State :=
  { s with run := .running, nmiPending := false, abortPending := false, inputs := [] }

end Sys2Proof.Machine
end

