-- ==== Sys2Proof/Machine/Interrupts.lean ====
section
/-! DEFINITION. What happens at a step boundary before an instruction (spec/60_exceptions.md R303 to R309, R312, R316,
R317): the inputs latched, reset, the stop and wait states, and the hardware interrupts. -/

namespace Sys2Proof.Machine

/-- No input active. -/
def quietInputs : Inputs :=
  { reset := false, irq := false, nmi := false, abort := false, setOverflow := false }

/-- The inputs of this step: the head of the list, none active when the list has ended (R303, D5, log 4). -/
def inputsNow (s : State) : Inputs := s.inputs.headD quietInputs

/-- The latches at the beginning of a step (R304): an NMI event is remembered, an ABORT event when ABORT_SUPPORTED. The
Set Overflow pin, when the platform has one (SO_PIN, D12), sets v here: DESIGN CHOICE (log 20), unsafe. -/
def latchInputs (s : State) : State :=
  { s with
    inputs := s.inputs.tail
    nmiPending := s.nmiPending || (inputsNow s).nmi
    abortPending := s.abortPending || (s.params.abortSupported && (inputsNow s).abort)
    p := if s.params.soPin && (inputsNow s).setOverflow then setFlag s.p .v true else s.p }

/-- The order of a priority, the first taken first (R312, D6, log 13). -/
def priorityOrder : Config.Priority → List Source
  | .abortNmiIrq => [.abort, .nmi, .irq]
  | .abortIrqNmi => [.abort, .irq, .nmi]
  | .nmiAbortIrq => [.nmi, .abort, .irq]
  | .nmiIrqAbort => [.nmi, .irq, .abort]
  | .irqAbortNmi => [.irq, .abort, .nmi]
  | .irqNmiAbort => [.irq, .nmi, .abort]

/-- The hardware sources that a running processor would take at this boundary (R305): ABORT and NMI by their latches,
IRQ by its line while `P.i = 0`. -/
def pendingRunning (irq : Bool) (s : State) : Source → Bool
  | .abort => s.abortPending
  | .nmi => s.nmiPending
  | .irq => irq && !getFlag s.p .i
  | .brk => false
  | .cop => false

/-- The sources that end a wait (R316): NMI by its latch, IRQ by its line whatever `P.i` is. -/
def pendingWaiting (irq : Bool) (s : State) : Source → Bool
  | .nmi => s.nmiPending
  | .irq => irq
  | .abort => false
  | .brk => false
  | .cop => false

/-- "first of INT_PRIORITY among" the pending sources. -/
def firstPending (pending : Source → Bool) (s : State) : Option Source :=
  (priorityOrder s.params.intPriority).find? pending

/-- What a step does: it ends in this state, or it executes the instruction at `PBR:PC` of this state. -/
inductive Plan where
  | done (t : State)
  | execute (t : State)
  deriving DecidableEq, Repr

/-- A step in the wait state (R316): ABORT is discarded when nothing wakes the processor (C38); an IRQ with `P.i = 1`
ends the wait without an interrupt. -/
def planWaiting (irq : Bool) (s : State) : Plan :=
  match firstPending (pendingWaiting irq s) s with
  | none => .done { s with abortPending := false }
  | some src =>
    if src = .irq ∧ getFlag s.p .i = true then .done { s with run := .running }
    else .done (interruptEntry src s.pc { s with run := .running })

/-- A step in the running state (R305): the first pending interrupt, else the instruction. -/
def planRunning (irq : Bool) (s : State) : Plan :=
  match firstPending (pendingRunning irq s) s with
  | none => .execute s
  | some src => .done (interruptEntry src s.pc s)

/-- The step function of R305 up to the execution of an instruction. -/
def plan (s : State) : Plan :=
  let t := latchInputs s
  if (inputsNow s).reset then .done (resetEntry t)
  else
    match t.run with
    | .stopped => .done t
    | .waiting => planWaiting (inputsNow s).irq t
    | .running => planRunning (inputsNow s).irq t

end Sys2Proof.Machine
end

