-- ==== Sys2Proof/Machine/Step.lean ====
section
/-! DEFINITION. One step of the machine (spec/60_exceptions.md R305): one instruction, one byte of a block move, one
interrupt entry, one reset, or an idle step. -/

namespace Sys2Proof.Machine

/-- `Step(t)` (R305). -/
def step (s : State) : Host.Outcome State Fault Refusal :=
  match plan s with
  | .done t => .next t
  | .execute t => exec (fetchInstr t) t

/-- The state with the instruction whose bits are `w` stored where the next step fetches it (log 23). -/
def State.withFetchWord (s : State) (nbits w : Nat) : State := placeBytes (tableBytes nbits w) 0 (readyToRun s)

end Sys2Proof.Machine
end

