-- ==== Sys2Proof/Machine/Bus.lean ====
section
/-! DEFINITION. The memory accesses of every step in their order (spec/20_memory.md R54 to R66, R74;
30_encoding.md R81; 60_exceptions.md R310). A read returns the byte that is there at its place in the order, a write
leaves the byte that is there after the instruction, which writes no address twice. Internal cycles are no accesses
(R58), nor are the ignored bus cycles of interrupt entry and reset (R62, D16, log 25). The meanings in the family files
do not use this file: it says what a platform that watches the bus would see (log 29). -/

namespace Sys2Proof.Machine

/-- What the pins VPA, VDA and VP tell of an access (R62, R74). -/
inductive AccessKind where
  /-- VPA and VDA: the opcode. -/
  | opcode
  /-- VPA: an operand byte, or the pointer table of (abs,X). -/
  | program
  /-- VDA: a pointer, a datum, the stack. -/
  | data
  /-- VDA with VP low: an interrupt vector. -/
  | vectorPull
  deriving DecidableEq, Repr

/-- One access: one byte (R45). -/
structure Access where
  kind : AccessKind
  write : Bool
  addr : Addr
  /-- The memory-lock output is low (R66). -/
  lock : Bool
  deriving DecidableEq, Repr

/-- A read without memory lock. -/
def readOf (kind : AccessKind) (a : Addr) : Access := { kind := kind, write := false, addr := a, lock := false }

/-- A write of data without memory lock. -/
def writeOf (a : Addr) : Access := { kind := .data, write := true, addr := a, lock := false }

/-- The fetch of the bytes `from` to `from + count - 1` of the instruction (R59, R81). -/
def fetches (s : State) (start count : Nat) : List Access :=
  (List.range' start count).map fun n =>
    readOf (if n = 0 then .opcode else .program) (fetchAddr s n)

/-- The pointer a mode reads before its datum, low byte first (R59, R117 to R121, R128). -/
def pointerBytes (mode : Mode) (s : State) : List Addr :=
  match mode with
  | .dirInd o | .dirIndY o => [dp s o.toNat, dpNext s o.toNat]
  | .dirXInd o => [dp s (o.toNat + s.x.toNat), dpNext s (o.toNat + s.x.toNat)]
  | .dirLong o | .dirLongY o =>
    [dp s o.toNat, inc16 (dp s o.toNat), inc16 (inc16 (dp s o.toNat))]
  | .stkIndY o => [stackRelative s o, inc16 (stackRelative s o)]
  | .dir _ | .dirX _ | .dirY _ | .abs _ | .absX _ | .absY _ | .long _ | .longX _ | .stk _ => []

/-- Everything up to the datum: the instruction bytes, then the pointer. -/
def upToDatum (mode : Mode) (s : State) : List Access :=
  fetches s 0 mode.length ++ (pointerBytes mode s).map (readOf .data)

/-- An instruction that reads a memory operand. -/
def loadAccesses (w : Width) (mode : Mode) (s : State) : List Access :=
  upToDatum mode s ++ (datumBytes (mode.ea s) w).map (readOf .data)

/-- An instruction with an immediate operand: instruction bytes alone (R113). -/
def immAccesses (w : Width) (s : State) : List Access := fetches s 0 (1 + widthBytes w)

/-- An instruction that stores, low byte first and nothing read (R60, R243). -/
def storeAccesses (w : Width) (mode : Mode) (s : State) : List Access :=
  upToDatum mode s ++ (datumBytes (mode.ea s) w).map writeOf

/-- A read-modify-write instruction: read upward, written high byte first, memory lock from the first read to the last
write (R61, R66). -/
def modifyAccesses (mode : Mode) (s : State) : List Access :=
  let bytes := datumBytes (mode.ea s) (wm s)
  upToDatum mode s ++ bytes.map (fun a => { readOf .data a with lock := true }) ++
    bytes.reverse.map fun a => { writeOf a with lock := true }

/-- The addresses of `n` successive `Push8` (R63, R140). -/
def pushBytes (e : Bool) : Nat → Word → List Addr
  | 0, _ => []
  | n + 1, sp => stackAddr sp :: pushBytes e n (pushPointer e sp)

/-- The addresses of `n` successive `Pull8` (R59, R142). -/
def pullBytes (e : Bool) : Nat → Word → List Addr
  | 0, _ => []
  | n + 1, sp => stackAddr (pullPointer e sp) :: pullBytes e n (pullPointer e sp)

/-- An instruction of `len` bytes followed by `n` pushes; `wide` for those with the 16-bit stack pointer (R141). -/
def pushAccesses (wide : Bool) (len n : Nat) (s : State) : List Access :=
  fetches s 0 len ++ (pushBytes (s.e && !wide) n s.sp).map writeOf

/-- A one-byte instruction followed by `n` pulls. -/
def pullAccesses (wide : Bool) (n : Nat) (s : State) : List Access :=
  fetches s 0 1 ++ (pullBytes (s.e && !wide) n s.sp).map (readOf .data)

/-- The pushes and the vector reads of `InterruptEntry` (R310, R74). -/
def entryAccesses (src : Source) (s : State) : List Access :=
  (pushBytes s.e (if s.e then 3 else 4) s.sp).map writeOf ++
    [readOf .vectorPull (bankAddr 0x00 (vector src s.e)), readOf .vectorPull (inc16 (bankAddr 0x00 (vector src s.e)))]

/-- The two reads of reset (R342, R344). -/
def resetAccesses : List Access :=
  [readOf .vectorPull (bankAddr 0x00 resetVector), readOf .vectorPull (inc16 (bankAddr 0x00 resetVector))]

/-- One byte of a block move (R64). -/
def moveAccesses (dst src : Byte) (s : State) : List Access :=
  fetches s 0 3 ++ [readOf .data (bankAddr src s.x), writeOf (bankAddr dst s.y)]

/-- JSL: its bank byte is fetched after PBR has been pushed (R64). -/
def jslAccesses (s : State) : List Access :=
  fetches s 0 3 ++ [writeOf (stackAddr s.sp)] ++ fetches s 3 1 ++
    [writeOf (stackAddr (s.sp - 1)), writeOf (stackAddr (s.sp - 2))]

/-- JSR (abs,X): its second operand byte is fetched after the pushes, its pointer is read as program (R62, R64). -/
def jsrTableAccesses (a : Word) (s : State) : List Access :=
  let t := push16n (s.pc + 2) s
  let table := tableAddr s (joinBytes (lateFetch s t 2 (highByte a)) (lowByte a))
  fetches s 0 2 ++ [writeOf (stackAddr s.sp), writeOf (stackAddr (s.sp - 1))] ++ fetches s 2 1 ++
    [readOf .program table, readOf .program (inc16 table)]

/-- The accesses of an instruction, in order. -/
def accesses (i : Instr) (s : State) : List Access :=
  match i with
  | .brk _ => fetches s 0 2 ++ entryAccesses .brk s
  | .oraDirXInd o => loadAccesses (wm s) (.dirXInd o) s
  | .cop _ => fetches s 0 2 ++ entryAccesses .cop s
  | .oraStk o => loadAccesses (wm s) (.stk o) s
  | .tsbDir o => modifyAccesses (.dir o) s
  | .oraDir o => loadAccesses (wm s) (.dir o) s
  | .aslDir o => modifyAccesses (.dir o) s
  | .oraDirLong o => loadAccesses (wm s) (.dirLong o) s
  | .php => pushAccesses false 1 1 s
  | .oraImm _ => immAccesses (wm s) s
  | .phd => pushAccesses true 1 2 s
  | .tsbAbs a => modifyAccesses (.abs a) s
  | .oraAbs a => loadAccesses (wm s) (.abs a) s
  | .aslAbs a => modifyAccesses (.abs a) s
  | .oraLong l => loadAccesses (wm s) (.long l) s
  | .oraDirIndY o => loadAccesses (wm s) (.dirIndY o) s
  | .oraDirInd o => loadAccesses (wm s) (.dirInd o) s
  | .oraStkIndY o => loadAccesses (wm s) (.stkIndY o) s
  | .trbDir o => modifyAccesses (.dir o) s
  | .oraDirX o => loadAccesses (wm s) (.dirX o) s
  | .aslDirX o => modifyAccesses (.dirX o) s
  | .oraDirLongY o => loadAccesses (wm s) (.dirLongY o) s
  | .oraAbsY a => loadAccesses (wm s) (.absY a) s
  | .trbAbs a => modifyAccesses (.abs a) s
  | .oraAbsX a => loadAccesses (wm s) (.absX a) s
  | .aslAbsX a => modifyAccesses (.absX a) s
  | .oraLongX l => loadAccesses (wm s) (.longX l) s
  | .jsrAbs _ => pushAccesses false 3 2 s
  | .andDirXInd o => loadAccesses (wm s) (.dirXInd o) s
  | .jsl _ => jslAccesses s
  | .andStk o => loadAccesses (wm s) (.stk o) s
  | .bitDir o => loadAccesses (wm s) (.dir o) s
  | .andDir o => loadAccesses (wm s) (.dir o) s
  | .rolDir o => modifyAccesses (.dir o) s
  | .andDirLong o => loadAccesses (wm s) (.dirLong o) s
  | .plp => pullAccesses false 1 s
  | .andImm _ => immAccesses (wm s) s
  | .pld => pullAccesses true 2 s
  | .bitAbs a => loadAccesses (wm s) (.abs a) s
  | .andAbs a => loadAccesses (wm s) (.abs a) s
  | .rolAbs a => modifyAccesses (.abs a) s
  | .andLong l => loadAccesses (wm s) (.long l) s
  | .andDirIndY o => loadAccesses (wm s) (.dirIndY o) s
  | .andDirInd o => loadAccesses (wm s) (.dirInd o) s
  | .andStkIndY o => loadAccesses (wm s) (.stkIndY o) s
  | .bitDirX o => loadAccesses (wm s) (.dirX o) s
  | .andDirX o => loadAccesses (wm s) (.dirX o) s
  | .rolDirX o => modifyAccesses (.dirX o) s
  | .andDirLongY o => loadAccesses (wm s) (.dirLongY o) s
  | .andAbsY a => loadAccesses (wm s) (.absY a) s
  | .bitAbsX a => loadAccesses (wm s) (.absX a) s
  | .andAbsX a => loadAccesses (wm s) (.absX a) s
  | .rolAbsX a => modifyAccesses (.absX a) s
  | .andLongX l => loadAccesses (wm s) (.longX l) s
  | .rti => pullAccesses false (if s.e then 3 else 4) s
  | .eorDirXInd o => loadAccesses (wm s) (.dirXInd o) s
  | .eorStk o => loadAccesses (wm s) (.stk o) s
  | .mvp dst src => moveAccesses dst src s
  | .eorDir o => loadAccesses (wm s) (.dir o) s
  | .lsrDir o => modifyAccesses (.dir o) s
  | .eorDirLong o => loadAccesses (wm s) (.dirLong o) s
  | .pha => pushAccesses false 1 (widthBytes (wm s)) s
  | .eorImm _ => immAccesses (wm s) s
  | .phk => pushAccesses false 1 1 s
  | .eorAbs a => loadAccesses (wm s) (.abs a) s
  | .lsrAbs a => modifyAccesses (.abs a) s
  | .eorLong l => loadAccesses (wm s) (.long l) s
  | .eorDirIndY o => loadAccesses (wm s) (.dirIndY o) s
  | .eorDirInd o => loadAccesses (wm s) (.dirInd o) s
  | .eorStkIndY o => loadAccesses (wm s) (.stkIndY o) s
  | .mvn dst src => moveAccesses dst src s
  | .eorDirX o => loadAccesses (wm s) (.dirX o) s
  | .lsrDirX o => modifyAccesses (.dirX o) s
  | .eorDirLongY o => loadAccesses (wm s) (.dirLongY o) s
  | .eorAbsY a => loadAccesses (wm s) (.absY a) s
  | .phy => pushAccesses false 1 (widthBytes (wx s)) s
  | .eorAbsX a => loadAccesses (wm s) (.absX a) s
  | .lsrAbsX a => modifyAccesses (.absX a) s
  | .eorLongX l => loadAccesses (wm s) (.longX l) s
  | .rts => pullAccesses false 2 s
  | .adcDirXInd o => loadAccesses (wm s) (.dirXInd o) s
  | .per _ => pushAccesses true 3 2 s
  | .adcStk o => loadAccesses (wm s) (.stk o) s
  | .stzDir o => storeAccesses (wm s) (.dir o) s
  | .adcDir o => loadAccesses (wm s) (.dir o) s
  | .rorDir o => modifyAccesses (.dir o) s
  | .adcDirLong o => loadAccesses (wm s) (.dirLong o) s
  | .pla => pullAccesses false (widthBytes (wm s)) s
  | .adcImm _ => immAccesses (wm s) s
  | .rtl => pullAccesses true 3 s
  | .jmpAbsInd a => fetches s 0 3 ++ [readOf .data (bankAddr 0x00 a), readOf .data (inc16 (bankAddr 0x00 a))]
  | .adcAbs a => loadAccesses (wm s) (.abs a) s
  | .rorAbs a => modifyAccesses (.abs a) s
  | .adcLong l => loadAccesses (wm s) (.long l) s
  | .adcDirIndY o => loadAccesses (wm s) (.dirIndY o) s
  | .adcDirInd o => loadAccesses (wm s) (.dirInd o) s
  | .adcStkIndY o => loadAccesses (wm s) (.stkIndY o) s
  | .stzDirX o => storeAccesses (wm s) (.dirX o) s
  | .adcDirX o => loadAccesses (wm s) (.dirX o) s
  | .rorDirX o => modifyAccesses (.dirX o) s
  | .adcDirLongY o => loadAccesses (wm s) (.dirLongY o) s
  | .adcAbsY a => loadAccesses (wm s) (.absY a) s
  | .ply => pullAccesses false (widthBytes (wx s)) s
  | .jmpAbsXInd a => fetches s 0 3 ++ [readOf .program (tableAddr s a), readOf .program (inc16 (tableAddr s a))]
  | .adcAbsX a => loadAccesses (wm s) (.absX a) s
  | .rorAbsX a => modifyAccesses (.absX a) s
  | .adcLongX l => loadAccesses (wm s) (.longX l) s
  | .staDirXInd o => storeAccesses (wm s) (.dirXInd o) s
  | .staStk o => storeAccesses (wm s) (.stk o) s
  | .styDir o => storeAccesses (wx s) (.dir o) s
  | .staDir o => storeAccesses (wm s) (.dir o) s
  | .stxDir o => storeAccesses (wx s) (.dir o) s
  | .staDirLong o => storeAccesses (wm s) (.dirLong o) s
  | .bitImm _ => immAccesses (wm s) s
  | .phb => pushAccesses false 1 1 s
  | .styAbs a => storeAccesses (wx s) (.abs a) s
  | .staAbs a => storeAccesses (wm s) (.abs a) s
  | .stxAbs a => storeAccesses (wx s) (.abs a) s
  | .staLong l => storeAccesses (wm s) (.long l) s
  | .staDirIndY o => storeAccesses (wm s) (.dirIndY o) s
  | .staDirInd o => storeAccesses (wm s) (.dirInd o) s
  | .staStkIndY o => storeAccesses (wm s) (.stkIndY o) s
  | .styDirX o => storeAccesses (wx s) (.dirX o) s
  | .staDirX o => storeAccesses (wm s) (.dirX o) s
  | .stxDirY o => storeAccesses (wx s) (.dirY o) s
  | .staDirLongY o => storeAccesses (wm s) (.dirLongY o) s
  | .staAbsY a => storeAccesses (wm s) (.absY a) s
  | .stzAbs a => storeAccesses (wm s) (.abs a) s
  | .staAbsX a => storeAccesses (wm s) (.absX a) s
  | .stzAbsX a => storeAccesses (wm s) (.absX a) s
  | .staLongX l => storeAccesses (wm s) (.longX l) s
  | .ldyImm _ => immAccesses (wx s) s
  | .ldaDirXInd o => loadAccesses (wm s) (.dirXInd o) s
  | .ldxImm _ => immAccesses (wx s) s
  | .ldaStk o => loadAccesses (wm s) (.stk o) s
  | .ldyDir o => loadAccesses (wx s) (.dir o) s
  | .ldaDir o => loadAccesses (wm s) (.dir o) s
  | .ldxDir o => loadAccesses (wx s) (.dir o) s
  | .ldaDirLong o => loadAccesses (wm s) (.dirLong o) s
  | .ldaImm _ => immAccesses (wm s) s
  | .plb => pullAccesses false 1 s
  | .ldyAbs a => loadAccesses (wx s) (.abs a) s
  | .ldaAbs a => loadAccesses (wm s) (.abs a) s
  | .ldxAbs a => loadAccesses (wx s) (.abs a) s
  | .ldaLong l => loadAccesses (wm s) (.long l) s
  | .ldaDirIndY o => loadAccesses (wm s) (.dirIndY o) s
  | .ldaDirInd o => loadAccesses (wm s) (.dirInd o) s
  | .ldaStkIndY o => loadAccesses (wm s) (.stkIndY o) s
  | .ldyDirX o => loadAccesses (wx s) (.dirX o) s
  | .ldaDirX o => loadAccesses (wm s) (.dirX o) s
  | .ldxDirY o => loadAccesses (wx s) (.dirY o) s
  | .ldaDirLongY o => loadAccesses (wm s) (.dirLongY o) s
  | .ldaAbsY a => loadAccesses (wm s) (.absY a) s
  | .ldyAbsX a => loadAccesses (wx s) (.absX a) s
  | .ldaAbsX a => loadAccesses (wm s) (.absX a) s
  | .ldxAbsY a => loadAccesses (wx s) (.absY a) s
  | .ldaLongX l => loadAccesses (wm s) (.longX l) s
  | .cpyImm _ => immAccesses (wx s) s
  | .cmpDirXInd o => loadAccesses (wm s) (.dirXInd o) s
  | .cmpStk o => loadAccesses (wm s) (.stk o) s
  | .cpyDir o => loadAccesses (wx s) (.dir o) s
  | .cmpDir o => loadAccesses (wm s) (.dir o) s
  | .decDir o => modifyAccesses (.dir o) s
  | .cmpDirLong o => loadAccesses (wm s) (.dirLong o) s
  | .cmpImm _ => immAccesses (wm s) s
  | .cpyAbs a => loadAccesses (wx s) (.abs a) s
  | .cmpAbs a => loadAccesses (wm s) (.abs a) s
  | .decAbs a => modifyAccesses (.abs a) s
  | .cmpLong l => loadAccesses (wm s) (.long l) s
  | .cmpDirIndY o => loadAccesses (wm s) (.dirIndY o) s
  | .cmpDirInd o => loadAccesses (wm s) (.dirInd o) s
  | .cmpStkIndY o => loadAccesses (wm s) (.stkIndY o) s
  | .pei o => fetches s 0 2 ++ [readOf .data (dp s o.toNat), readOf .data (inc16 (dp s o.toNat))] ++
      (pushBytes false 2 s.sp).map writeOf
  | .cmpDirX o => loadAccesses (wm s) (.dirX o) s
  | .decDirX o => modifyAccesses (.dirX o) s
  | .cmpDirLongY o => loadAccesses (wm s) (.dirLongY o) s
  | .cmpAbsY a => loadAccesses (wm s) (.absY a) s
  | .phx => pushAccesses false 1 (widthBytes (wx s)) s
  | .jmlAbsLong a => fetches s 0 3 ++ [readOf .data (bankAddr 0x00 a), readOf .data (inc16 (bankAddr 0x00 a)),
      readOf .data (inc16 (inc16 (bankAddr 0x00 a)))]
  | .cmpAbsX a => loadAccesses (wm s) (.absX a) s
  | .decAbsX a => modifyAccesses (.absX a) s
  | .cmpLongX l => loadAccesses (wm s) (.longX l) s
  | .cpxImm _ => immAccesses (wx s) s
  | .sbcDirXInd o => loadAccesses (wm s) (.dirXInd o) s
  | .sbcStk o => loadAccesses (wm s) (.stk o) s
  | .cpxDir o => loadAccesses (wx s) (.dir o) s
  | .sbcDir o => loadAccesses (wm s) (.dir o) s
  | .incDir o => modifyAccesses (.dir o) s
  | .sbcDirLong o => loadAccesses (wm s) (.dirLong o) s
  | .sbcImm _ => immAccesses (wm s) s
  | .cpxAbs a => loadAccesses (wx s) (.abs a) s
  | .sbcAbs a => loadAccesses (wm s) (.abs a) s
  | .incAbs a => modifyAccesses (.abs a) s
  | .sbcLong l => loadAccesses (wm s) (.long l) s
  | .sbcDirIndY o => loadAccesses (wm s) (.dirIndY o) s
  | .sbcDirInd o => loadAccesses (wm s) (.dirInd o) s
  | .sbcStkIndY o => loadAccesses (wm s) (.stkIndY o) s
  | .pea _ => pushAccesses true 3 2 s
  | .sbcDirX o => loadAccesses (wm s) (.dirX o) s
  | .incDirX o => modifyAccesses (.dirX o) s
  | .sbcDirLongY o => loadAccesses (wm s) (.dirLongY o) s
  | .sbcAbsY a => loadAccesses (wm s) (.absY a) s
  | .plx => pullAccesses false (widthBytes (wx s)) s
  | .jsrAbsXInd a => jsrTableAccesses a s
  | .sbcAbsX a => loadAccesses (wm s) (.absX a) s
  | .incAbsX a => modifyAccesses (.absX a) s
  | .sbcLongX l => loadAccesses (wm s) (.longX l) s
  | .aslAcc | .clc | .incAcc | .tcs | .rolAcc | .sec | .decAcc | .tsc | .lsrAcc | .cli | .tcd | .rorAcc | .sei
  | .tdc | .dey | .txa | .tya | .txs | .txy | .tay | .tax | .clv | .tsx | .tyx | .iny | .dex | .wai | .cld
  | .stp | .inx | .nop | .xba | .sed | .xce => fetches s 0 1
  | .bpl _ | .bmi _ | .wdm _ | .bvc _ | .bvs _ | .bra _ | .bcc _ | .bcs _ | .rep _ | .bne _ | .sep _ | .beq _ => fetches s 0 2
  | .jmpAbs _ | .brl _ => fetches s 0 3
  | .jmlLong _ => fetches s 0 4

/-- The addresses that a list of accesses writes. -/
def writtenAddrs (l : List Access) : List Addr := (l.filter (·.write)).map (·.addr)

/-- The accesses of the interrupt or the reset that takes a step's place; none when the processor idles (R316, R317). -/
def boundaryAccesses (s : State) : List Access :=
  let t := latchInputs s
  if (inputsNow s).reset then resetAccesses
  else
    match t.run with
    | .stopped => []
    | .waiting =>
      match firstPending (pendingWaiting (inputsNow s).irq t) t with
      | none => []
      | some src => if src = .irq ∧ getFlag t.p .i = true then [] else entryAccesses src t
    | .running =>
      match firstPending (pendingRunning (inputsNow s).irq t) t with
      | none => []
      | some src => entryAccesses src t

/-- The accesses of a step, in order. -/
def stepAccesses (s : State) : List Access :=
  match plan s with
  | .done _ => boundaryAccesses s
  | .execute t => accesses (fetchInstr t) t

end Sys2Proof.Machine
end

