-- ==== Sys2Proof/Machine/Forms.lean ====
section
/-! DEFINITION. The forms of each mnemonic, for statements that speak of all of them: every constructor of the mnemonic
with its operand, over operand bytes `v` (an immediate), `o` (a direct or stack offset), `a` (a 16-bit address), `l` (a
24-bit address), `r` (a displacement). Only statements use this file, no meaning does. -/

namespace Sys2Proof.Machine

/-- The 15 forms of ADC (R150). -/
def adcForms (v : Word) (o : Byte) (a : Word) (l : Addr) : List (Instr × Operand) := [
  (.adcDirXInd o, .mem (.dirXInd o)), (.adcStk o, .mem (.stk o)), (.adcDir o, .mem (.dir o)),
  (.adcDirLong o, .mem (.dirLong o)), (.adcImm v, .imm v), (.adcAbs a, .mem (.abs a)),
  (.adcLong l, .mem (.long l)), (.adcDirIndY o, .mem (.dirIndY o)), (.adcDirInd o, .mem (.dirInd o)),
  (.adcStkIndY o, .mem (.stkIndY o)), (.adcDirX o, .mem (.dirX o)), (.adcDirLongY o, .mem (.dirLongY o)),
  (.adcAbsY a, .mem (.absY a)), (.adcAbsX a, .mem (.absX a)), (.adcLongX l, .mem (.longX l))]

/-- The 15 forms of SBC (R151). -/
def sbcForms (v : Word) (o : Byte) (a : Word) (l : Addr) : List (Instr × Operand) := [
  (.sbcDirXInd o, .mem (.dirXInd o)), (.sbcStk o, .mem (.stk o)), (.sbcDir o, .mem (.dir o)),
  (.sbcDirLong o, .mem (.dirLong o)), (.sbcImm v, .imm v), (.sbcAbs a, .mem (.abs a)),
  (.sbcLong l, .mem (.long l)), (.sbcDirIndY o, .mem (.dirIndY o)), (.sbcDirInd o, .mem (.dirInd o)),
  (.sbcStkIndY o, .mem (.stkIndY o)), (.sbcDirX o, .mem (.dirX o)), (.sbcDirLongY o, .mem (.dirLongY o)),
  (.sbcAbsY a, .mem (.absY a)), (.sbcAbsX a, .mem (.absX a)), (.sbcLongX l, .mem (.longX l))]

/-- The 15 forms of CMP (R153). -/
def cmpForms (v : Word) (o : Byte) (a : Word) (l : Addr) : List (Instr × Operand) := [
  (.cmpDirXInd o, .mem (.dirXInd o)), (.cmpStk o, .mem (.stk o)), (.cmpDir o, .mem (.dir o)),
  (.cmpDirLong o, .mem (.dirLong o)), (.cmpImm v, .imm v), (.cmpAbs a, .mem (.abs a)),
  (.cmpLong l, .mem (.long l)), (.cmpDirIndY o, .mem (.dirIndY o)), (.cmpDirInd o, .mem (.dirInd o)),
  (.cmpStkIndY o, .mem (.stkIndY o)), (.cmpDirX o, .mem (.dirX o)), (.cmpDirLongY o, .mem (.dirLongY o)),
  (.cmpAbsY a, .mem (.absY a)), (.cmpAbsX a, .mem (.absX a)), (.cmpLongX l, .mem (.longX l))]

/-- The 15 forms of AND (R160). -/
def andForms (v : Word) (o : Byte) (a : Word) (l : Addr) : List (Instr × Operand) := [
  (.andDirXInd o, .mem (.dirXInd o)), (.andStk o, .mem (.stk o)), (.andDir o, .mem (.dir o)),
  (.andDirLong o, .mem (.dirLong o)), (.andImm v, .imm v), (.andAbs a, .mem (.abs a)),
  (.andLong l, .mem (.long l)), (.andDirIndY o, .mem (.dirIndY o)), (.andDirInd o, .mem (.dirInd o)),
  (.andStkIndY o, .mem (.stkIndY o)), (.andDirX o, .mem (.dirX o)), (.andDirLongY o, .mem (.dirLongY o)),
  (.andAbsY a, .mem (.absY a)), (.andAbsX a, .mem (.absX a)), (.andLongX l, .mem (.longX l))]

/-- The 15 forms of EOR (R161). -/
def eorForms (v : Word) (o : Byte) (a : Word) (l : Addr) : List (Instr × Operand) := [
  (.eorDirXInd o, .mem (.dirXInd o)), (.eorStk o, .mem (.stk o)), (.eorDir o, .mem (.dir o)),
  (.eorDirLong o, .mem (.dirLong o)), (.eorImm v, .imm v), (.eorAbs a, .mem (.abs a)),
  (.eorLong l, .mem (.long l)), (.eorDirIndY o, .mem (.dirIndY o)), (.eorDirInd o, .mem (.dirInd o)),
  (.eorStkIndY o, .mem (.stkIndY o)), (.eorDirX o, .mem (.dirX o)), (.eorDirLongY o, .mem (.dirLongY o)),
  (.eorAbsY a, .mem (.absY a)), (.eorAbsX a, .mem (.absX a)), (.eorLongX l, .mem (.longX l))]

/-- The 15 forms of ORA (R162). -/
def oraForms (v : Word) (o : Byte) (a : Word) (l : Addr) : List (Instr × Operand) := [
  (.oraDirXInd o, .mem (.dirXInd o)), (.oraStk o, .mem (.stk o)), (.oraDir o, .mem (.dir o)),
  (.oraDirLong o, .mem (.dirLong o)), (.oraImm v, .imm v), (.oraAbs a, .mem (.abs a)),
  (.oraLong l, .mem (.long l)), (.oraDirIndY o, .mem (.dirIndY o)), (.oraDirInd o, .mem (.dirInd o)),
  (.oraStkIndY o, .mem (.stkIndY o)), (.oraDirX o, .mem (.dirX o)), (.oraDirLongY o, .mem (.dirLongY o)),
  (.oraAbsY a, .mem (.absY a)), (.oraAbsX a, .mem (.absX a)), (.oraLongX l, .mem (.longX l))]

/-- The 15 forms of LDA (R240). -/
def ldaForms (v : Word) (o : Byte) (a : Word) (l : Addr) : List (Instr × Operand) := [
  (.ldaDirXInd o, .mem (.dirXInd o)), (.ldaStk o, .mem (.stk o)), (.ldaDir o, .mem (.dir o)),
  (.ldaDirLong o, .mem (.dirLong o)), (.ldaImm v, .imm v), (.ldaAbs a, .mem (.abs a)),
  (.ldaLong l, .mem (.long l)), (.ldaDirIndY o, .mem (.dirIndY o)), (.ldaDirInd o, .mem (.dirInd o)),
  (.ldaStkIndY o, .mem (.stkIndY o)), (.ldaDirX o, .mem (.dirX o)), (.ldaDirLongY o, .mem (.dirLongY o)),
  (.ldaAbsY a, .mem (.absY a)), (.ldaAbsX a, .mem (.absX a)), (.ldaLongX l, .mem (.longX l))]

/-- The 5 forms of LDX (R241). -/
def ldxForms (v : Word) (o : Byte) (a : Word) : List (Instr × Operand) := [
  (.ldxImm v, .imm v), (.ldxDir o, .mem (.dir o)), (.ldxAbs a, .mem (.abs a)), (.ldxDirY o, .mem (.dirY o)),
  (.ldxAbsY a, .mem (.absY a))]

/-- The 5 forms of LDY (R242). -/
def ldyForms (v : Word) (o : Byte) (a : Word) : List (Instr × Operand) := [
  (.ldyImm v, .imm v), (.ldyDir o, .mem (.dir o)), (.ldyAbs a, .mem (.abs a)), (.ldyDirX o, .mem (.dirX o)),
  (.ldyAbsX a, .mem (.absX a))]

/-- The 3 forms of CPX (R154). -/
def cpxForms (v : Word) (o : Byte) (a : Word) : List (Instr × Operand) := [
  (.cpxImm v, .imm v), (.cpxDir o, .mem (.dir o)), (.cpxAbs a, .mem (.abs a))]

/-- The 3 forms of CPY (R155). -/
def cpyForms (v : Word) (o : Byte) (a : Word) : List (Instr × Operand) := [
  (.cpyImm v, .imm v), (.cpyDir o, .mem (.dir o)), (.cpyAbs a, .mem (.abs a))]

/-- The 4 forms of BIT with a memory operand (R163). -/
def bitMemoryForms (o : Byte) (a : Word) : List (Instr × Operand) := [
  (.bitDir o, .mem (.dir o)), (.bitAbs a, .mem (.abs a)), (.bitDirX o, .mem (.dirX o)),
  (.bitAbsX a, .mem (.absX a))]

/-- The 14 forms of STA (R243). -/
def staForms (o : Byte) (a : Word) (l : Addr) : List (Instr × Mode) := [
  (.staDirXInd o, .dirXInd o), (.staStk o, .stk o), (.staDir o, .dir o), (.staDirLong o, .dirLong o),
  (.staAbs a, .abs a), (.staLong l, .long l), (.staDirIndY o, .dirIndY o), (.staDirInd o, .dirInd o),
  (.staStkIndY o, .stkIndY o), (.staDirX o, .dirX o), (.staDirLongY o, .dirLongY o), (.staAbsY a, .absY a),
  (.staAbsX a, .absX a), (.staLongX l, .longX l)]

/-- The 3 forms of STX (R244). -/
def stxForms (o : Byte) (a : Word) : List (Instr × Mode) := [
  (.stxDir o, .dir o), (.stxAbs a, .abs a), (.stxDirY o, .dirY o)]

/-- The 3 forms of STY (R245). -/
def styForms (o : Byte) (a : Word) : List (Instr × Mode) := [
  (.styDir o, .dir o), (.styAbs a, .abs a), (.styDirX o, .dirX o)]

/-- The 4 forms of STZ (R246). -/
def stzForms (o : Byte) (a : Word) : List (Instr × Mode) := [
  (.stzDir o, .dir o), (.stzDirX o, .dirX o), (.stzAbs a, .abs a), (.stzAbsX a, .absX a)]

/-- The 2 forms of TSB (R165). -/
def tsbForms (o : Byte) (a : Word) : List (Instr × Mode) := [
  (.tsbDir o, .dir o), (.tsbAbs a, .abs a)]

/-- The 2 forms of TRB (R164). -/
def trbForms (o : Byte) (a : Word) : List (Instr × Mode) := [
  (.trbDir o, .dir o), (.trbAbs a, .abs a)]

/-- The six read-modify-write operations on a number (R170 to R174, R177). -/
inductive Modification where
  | asl
  | lsr
  | rol
  | ror
  | dec
  | inc
  deriving DecidableEq, Repr

/-- The 24 memory forms of ASL, LSR, ROL, ROR, DEC and INC (R180). -/
def modifyForms (o : Byte) (a : Word) : List (Instr × Mode × Modification) := [
  (.aslDir o, .dir o, .asl), (.aslAbs a, .abs a, .asl), (.aslDirX o, .dirX o, .asl),
  (.aslAbsX a, .absX a, .asl), (.lsrDir o, .dir o, .lsr), (.lsrAbs a, .abs a, .lsr),
  (.lsrDirX o, .dirX o, .lsr), (.lsrAbsX a, .absX a, .lsr), (.rolDir o, .dir o, .rol),
  (.rolAbs a, .abs a, .rol), (.rolDirX o, .dirX o, .rol), (.rolAbsX a, .absX a, .rol),
  (.rorDir o, .dir o, .ror), (.rorAbs a, .abs a, .ror), (.rorDirX o, .dirX o, .ror),
  (.rorAbsX a, .absX a, .ror), (.decDir o, .dir o, .dec), (.decAbs a, .abs a, .dec),
  (.decDirX o, .dirX o, .dec), (.decAbsX a, .absX a, .dec), (.incDir o, .dir o, .inc),
  (.incAbs a, .abs a, .inc), (.incDirX o, .dirX o, .inc), (.incAbsX a, .absX a, .inc)]

/-- The 6 accumulator forms of ASL, LSR, ROL, ROR, DEC and INC (R180). -/
def accumulatorForms : List (Instr × Modification) := [
  (.aslAcc, .asl), (.lsrAcc, .lsr), (.rolAcc, .rol), (.rorAcc, .ror), (.decAcc, .dec), (.incAcc, .inc)]

/-- The eight conditional branches with the flag they test and the value that takes them (R186 to R191, R194, R195). -/
def conditionalBranches (r : Byte) : List (Instr × Flag × Bool) := [
  (.bcc r, .c, false), (.bcs r, .c, true), (.beq r, .z, true), (.bne r, .z, false), (.bmi r, .n, true),
  (.bpl r, .n, false), (.bvc r, .v, false), (.bvs r, .v, true)]

/-- The seven instructions that write one flag (R200 to R206). -/
def flagInstructions : List (Instr × Flag × Bool) := [
  (.clc, .c, false), (.cld, .d, false), (.cli, .i, false), (.clv, .v, false), (.sec, .c, true),
  (.sed, .d, true), (.sei, .i, true)]

end Sys2Proof.Machine
end

