-- ==== Sys2Proof/Safety.lean ====
section
/-! DEFINITION. What a good state and a safe step are (spec/10_state.md R29, 60_exceptions.md R300), and the terms in
which the statements speak of the machine: flags and memory kept, decimal values, the arithmetic of the shifts, what an
interrupt entry leaves. No meaning uses this file. -/

namespace Sys2Proof.Machine

/-! ## Invariants -/

/-- I1 of R29: in emulation mode m and x are 1. -/
abbrev EmulationWidths (s : State) : Prop :=
  s.e = true → getFlag s.p .m = true ∧ getFlag s.p .x = true

/-- I2 of R29: in emulation mode SH is $01. -/
abbrev EmulationStack (s : State) : Prop := s.e = true → highByte s.sp = 0x01

/-- I3 of R29: when x is 1, XH and YH are $00. -/
abbrev IndexHigh (s : State) : Prop :=
  getFlag s.p .x = true → highByte s.x = 0x00 ∧ highByte s.y = 0x00

/-- The invariant of the machine: R29 and the canonical form of memory. -/
abbrev Inv (s : State) : Prop :=
  EmulationWidths s ∧ EmulationStack s ∧ IndexHigh s ∧ Memory.wf s.mem = true

/-- A step that answers a next state. -/
def SafeStep (s : State) : Prop := ∃ t, step s = .next t

/-! ## What is kept -/

/-- The flags of a list are the same in `q` as in `p`. -/
def flagsKept (fs : List Flag) (p q : Byte) : Prop := ∀ f ∈ fs, getFlag q f = getFlag p f

/-- Every byte of memory outside the stored addresses reads as before. -/
def memoryKept (stored : List Addr) (s t : State) : Prop := ∀ a, a ∉ stored → t.read a = s.read a

/-- n and z as `SetNZ_w` writes them for the value `v` (00_scope.md section 5). -/
def nzOf (w : Width) (v : Word) (p : Byte) : Prop :=
  getFlag p .n = msbAt w v ∧ (getFlag p .z = true ↔ v.toNat % 2 ^ widthBits w = 0)

/-! ## Numbers -/

/-- The number that the low `digits` decimal digits of `a` stand for, four bits a digit. -/
def bcdValue : Nat → Nat → Nat
  | 0, _ => 0
  | digits + 1, a => a % 16 + 10 * bcdValue digits (a / 16)

/-- The result of a read-modify-write operation on `bits`-bit numbers with the carry in (R170 to R174, R177). -/
def Modification.result (k : Modification) (bits cin old : Nat) : Nat :=
  match k with
  | .asl => old * 2 % 2 ^ bits
  | .lsr => old / 2
  | .rol => old * 2 % 2 ^ bits + cin
  | .ror => old / 2 + cin * 2 ^ (bits - 1)
  | .dec => (old + 2 ^ bits - 1) % 2 ^ bits
  | .inc => (old + 1) % 2 ^ bits

/-- The carry flag after a read-modify-write operation: the bit shifted out, or the old carry (R170 to R174, R177). -/
def Modification.carry (k : Modification) (bits : Nat) (cin : Bool) (old : Nat) : Bool :=
  match k with
  | .asl | .rol => decide (2 ^ (bits - 1) ≤ old)
  | .lsr | .ror => decide (old % 2 = 1)
  | .dec | .inc => cin

/-! ## Step boundaries -/

/-- Nothing comes before the instruction at the program counter: running, no reset, no NMI, no ABORT, no IRQ that `i`
does not mask, and no event on a Set Overflow pin (R305). -/
def Undisturbed (s : State) : Prop :=
  s.run = .running ∧ (inputsNow s).reset = false ∧ s.nmiPending = false ∧ (inputsNow s).nmi = false ∧
    s.abortPending = false ∧ (s.params.abortSupported && (inputsNow s).abort) = false ∧
    ((inputsNow s).irq = true → getFlag s.p .i = true) ∧
    (s.params.soPin && (inputsNow s).setOverflow) = false

/-- The bytes at `PBR:PC`, `PBR:PC+1`, …, the address wrapping inside the program bank (R17, R81). -/
def bytesAtPc (s : State) (bs : List Byte) : Prop :=
  ∀ n b, bs[n]? = some b → s.read (bankAddr s.pbr (BitVec.ofNat 16 (s.pc.toNat + n))) = b

/-! ## Interrupt entry -/

/-- The status byte an entry stacks in emulation mode (R311). -/
def emulationStatus (src : Source) (p : Byte) : Byte :=
  if src = .brk ∨ src = .cop then p ||| 0x30 else (p ||| 0x20) &&& 0xEF

/-- The address `n` below the stack pointer inside page 1. -/
def pageOneBelow (sp : Word) (n : Byte) : Addr := bankAddr 0x00 (joinBytes 0x01 (lowByte sp - n))

/-- What every entry does after its pushes (R310): `i` set, `d` cleared, the other flags kept, the handler's address
read from the vector. -/
def atHandler (src : Source) (s t : State) : Prop :=
  getFlag t.p .i = true ∧ getFlag t.p .d = false ∧ flagsKept [.n, .v, .m, .x, .z, .c] s.p t.p ∧
    t.pc = joinBytes (t.read (bankAddr 0x00 (vector src s.e + 1))) (t.read (bankAddr 0x00 (vector src s.e)))

/-- `InterruptEntry(src, ret)` in native mode leads from `s` to `t` (R310). -/
def EntersNative (src : Source) (ret : Word) (s t : State) : Prop :=
  t = { s with
        mem := t.mem, sp := s.sp - 4, p := t.p, pbr := 0x00, pc := t.pc, run := .running
        nmiPending := !decide (src = .nmi) && s.nmiPending
        abortPending := !decide (src = .abort) && s.abortPending } ∧
    t.read (stackAddr s.sp) = s.pbr ∧ t.read (stackAddr (s.sp - 1)) = highByte ret ∧
    t.read (stackAddr (s.sp - 2)) = lowByte ret ∧ t.read (stackAddr (s.sp - 3)) = s.p ∧
    memoryKept [stackAddr s.sp, stackAddr (s.sp - 1), stackAddr (s.sp - 2), stackAddr (s.sp - 3)] s t ∧
    atHandler src s t

/-- `InterruptEntry(src, ret)` in emulation mode leads from `s` to `t` (R310): the pushes stay in page 1, PBR is not
saved, DBR is cleared under EMU_INT_CLEARS_DBR (log 14). -/
def EntersEmulation (src : Source) (ret : Word) (s t : State) : Prop :=
  t = { s with
        mem := t.mem, sp := joinBytes 0x01 (lowByte s.sp - 3), p := t.p, pbr := 0x00, pc := t.pc, run := .running
        dbr := if s.params.emuIntClearsDbr then 0x00 else s.dbr
        nmiPending := !decide (src = .nmi) && s.nmiPending
        abortPending := !decide (src = .abort) && s.abortPending } ∧
    t.read (stackAddr s.sp) = highByte ret ∧ t.read (pageOneBelow s.sp 1) = lowByte ret ∧
    t.read (pageOneBelow s.sp 2) = emulationStatus src s.p ∧
    memoryKept [stackAddr s.sp, pageOneBelow s.sp 1, pageOneBelow s.sp 2] s t ∧
    atHandler src s t

/-- `InterruptEntry(src, ret)` leads from `s` to `t`, in the mode of `s` (R310). -/
def Enters (src : Source) (ret : Word) (s t : State) : Prop :=
  if s.e then EntersEmulation src ret s t else EntersNative src ret s t

end Sys2Proof.Machine
end

