-- ==== Sys2Proof/Certificates/Slice0/Obligations.lean ====
section
/-! DEFINITION. The statements for the provers. `v`, `a`, `o`, `l`, `r` are operand bytes as in Machine/Forms.lean. A
result is stated as the whole next state, with the fields that change named in a record update: every field that is not
named is unchanged, memory among them. Where memory changes, `memoryKept` says which addresses alone can read
differently. -/

open Sys2Proof Sys2Proof.Machine

/-! ## Encoding -/

/-- R80 to R93: decoding the bytes of a well-formed instruction, whatever follows them, gives it back. -/
def Obligations.DecodeOfEncode : Prop :=
  ∀ (m x : Bool) (i : Instr) (rest : List Byte), i.wellFormed m x = true →
    decode m x (encode m x i ++ rest) = .ok (i, rest)

/-- R80 to R93: what decodes is well formed, and its encoding is exactly the bytes that were read; so no two byte
sequences decode to one instruction. -/
def Obligations.EncodeOfDecode : Prop :=
  ∀ (m x : Bool) (bs rest : List Byte) (i : Instr), decode m x bs = .ok (i, rest) →
    i.wellFormed m x = true ∧ encode m x i ++ rest = bs

/-- R84, R92: every opcode is defined, so any four bytes begin with an instruction. -/
def Obligations.EveryByteSequenceDecodes : Prop :=
  ∀ (m x : Bool) (op o1 o2 o3 : Byte) (rest : List Byte),
    ∃ i left, decode m x (op :: o1 :: o2 :: o3 :: rest) = .ok (i, left) ∧ rest <:+ left

/-- R83, R93: the length of the eight imm_m opcodes is `3 - m`, of the four imm_x opcodes `3 - x`, and no other length
depends on state. -/
def Obligations.OnlyImmediateLengthsVary : Prop :=
  ∀ (op : Byte) (m x : Bool),
    instrLength m x op =
      if op ∈ ([0x09, 0x29, 0x49, 0x69, 0x89, 0xA9, 0xC9, 0xE9] : List Byte) then 3 - bitNat m
      else if op ∈ ([0xA0, 0xA2, 0xC0, 0xE0] : List Byte) then 3 - bitNat x
      else instrLength true true op

/-- Words written out from the spec's encodings (R82, R85, R89) decode to the instructions they stand for. -/
def Obligations.WrittenWordsDecode : Prop :=
  decode true true [0x71, 0x20] = .ok (.adcDirIndY 0x20, []) ∧
  decode false true [0xA9, 0x34, 0x12] = .ok (.ldaImm 0x1234, []) ∧
  decode true false [0xA2, 0xFF, 0x01] = .ok (.ldxImm 0x01FF, []) ∧
  decode true true [0x54, 0x7F, 0x7E] = .ok (.mvn 0x7F 0x7E, []) ∧
  decode true true [0x22, 0x56, 0x34, 0x20] = .ok (.jsl 0x203456, []) ∧
  decode true true [0x9F, 0xBC, 0x9A, 0x78] = .ok (.staLongX 0x789ABC, []) ∧
  decode true true [0x82, 0xFD, 0xFF] = .ok (.brl 0xFFFD, []) ∧
  decode true true [0x13, 0x05] = .ok (.oraStkIndY 0x05, []) ∧
  decode true true [0xEB] = .ok (.xba, []) ∧ decode true true [0xC2, 0x30] = .ok (.rep 0x30, [])

/-- R81, R305: when nothing comes before the instruction, and the bytes at the program counter decode to `i`, the step
is `exec` of `i`, in the same state but for the inputs of this step, which are used up (the model's field, log 4). That
the addresses of the bytes wrap inside the program bank is the spec's decision D2 (DESIGN CHOICE, log 15). -/
def Obligations.StepRunsDecodedInstruction : Prop :=
  ∀ (s : State) (bs : List Byte) (i : Instr), Undisturbed s → bytesAtPc s bs →
    decode (getFlag s.p .m) (getFlag s.p .x) bs = .ok (i, []) →
    step s = exec i { s with inputs := s.inputs.tail }

/-! ## Memory -/

/-- R45, R67: a read returns the byte of the last write to its address, and a write leaves every other byte alone.
The rules say so of RAM; that every one of the 2^24 addresses is RAM is the default of R49 and D4 (DESIGN CHOICE, log
2). -/
def Obligations.ReadAfterWrite : Prop :=
  ∀ (s : State) (a b : Addr) (v : Byte), (s.write a v).read b = if b = a then v else s.read b

/-- Two memories in canonical form that read alike everywhere are the same list, and a write keeps the form. -/
def Obligations.MemoryIsCanonical : Prop :=
  (∀ (s t : State), Memory.wf s.mem = true → Memory.wf t.mem = true →
    (∀ a : Addr, s.read a = t.read a) → s.mem = t.mem) ∧
  (∀ (s : State) (a : Addr) (v : Byte), Memory.wf s.mem = true → Memory.wf (s.write a v).mem = true)

/-! ## The whole machine -/

/-- R29: every step keeps I1, I2, I3 and the canonical form of memory, from every state that has them. The clearing of
XH and YH in native mode is the model's PRESUMED reading (log 9). -/
def Obligations.StepKeepsInvariant : Prop := ∀ s t : State, Inv s → step s = .next t → Inv t

/-- R341: the state after reset has the invariant, and the values that the spec gives. -/
def Obligations.ResetHasInvariant : Prop :=
  Inv State.reset ∧ State.reset.e = true ∧ State.reset.d = 0x0000 ∧ State.reset.dbr = 0x00 ∧
    State.reset.pbr = 0x00 ∧ highByte State.reset.sp = 0x01 ∧ getFlag State.reset.p .i = true ∧
    getFlag State.reset.p .d = false ∧ State.reset.run = .running ∧
    State.reset.pc = State.reset.readWord (bankAddr 0x00 0xFFFC)

/-- R300: the processor raises no fault: every instruction and every step of every state answers a next state. A step
uses up the inputs of one step and never changes a parameter (the model's fields, logs 4, 5). -/
def Obligations.NothingStops : Prop :=
  (∀ (i : Instr) (s : State), ∃ t, exec i s = .next t) ∧
  ∀ s : State, ∃ t, step s = .next t ∧ t.inputs = s.inputs.tail ∧ t.params = s.params

/-- R19, R36: among the instructions e is written by XCE alone, and by a step otherwise only by reset. -/
def Obligations.EmulationFlagWriters : Prop :=
  (∀ (i : Instr) (s t : State), exec i s = .next t → t.e ≠ s.e → i = .xce) ∧
  (∀ s t : State, step s = .next t → t.e ≠ s.e →
    (inputsNow s).reset = true ∨ ∃ u, plan s = .execute u ∧ fetchInstr u = .xce)

/-- R14 to R16, R30, R32, R36: which instructions write the special registers. D: TCD and PLD. DBR: PLB, MVN and MVP
under BLOCK_MOVE_SETS_DBR (log 11), BRK and COP in emulation mode under EMU_INT_CLEARS_DBR (log 14). PBR: JML, JSL, RTL,
RTI in native mode, BRK and COP. The run state of a running processor: WAI and STP. The hidden byte B while m is 1: TDC,
TSC, XBA and the count of MVN and MVP. -/
def Obligations.SpecialRegisterWriters : Prop :=
  ∀ (i : Instr) (s t : State), exec i s = .next t →
    (t.d ≠ s.d → i = .tcd ∨ i = .pld) ∧
    (t.dbr ≠ s.dbr →
      i = .plb ∨
      (s.params.blockMoveSetsDbr = true ∧ ∃ dst src, i = .mvn dst src ∨ i = .mvp dst src) ∨
      (s.e = true ∧ s.params.emuIntClearsDbr = true ∧ ∃ sig, i = .brk sig ∨ i = .cop sig)) ∧
    (t.pbr ≠ s.pbr →
      (∃ l, i = .jmlLong l ∨ i = .jsl l) ∨ (∃ a, i = .jmlAbsLong a) ∨ i = .rtl ∨ (i = .rti ∧ s.e = false) ∨
      ∃ sig, i = .brk sig ∨ i = .cop sig) ∧
    (s.run = .running → t.run ≠ .running → (i = .wai ∧ t.run = .waiting) ∨ (i = .stp ∧ t.run = .stopped)) ∧
    (getFlag s.p .m = true → highByte t.c ≠ highByte s.c →
      i = .tdc ∨ i = .tsc ∨ i = .xba ∨ ∃ dst src, i = .mvn dst src ∨ i = .mvp dst src)

/-- R57 to R63: whatever a step is, an instruction, an interrupt, a reset or idling, no byte of memory changes but at
the addresses that its list of accesses writes. -/
def Obligations.OnlyListedBytesChange : Prop :=
  ∀ s t : State, step s = .next t → memoryKept (writtenAddrs (stepAccesses s)) s t

/-- R61, R66: the accesses of a read-modify-write instruction end with its reads of the datum, low byte first, and its
writes, high byte first, all under memory lock; the others of the instruction are not. -/
def Obligations.ModifyAccessOrder : Prop :=
  ∀ (s : State) (o : Byte) (a : Word) (form : Instr × Mode),
    form ∈ ((modifyForms o a).map fun f => (f.1, f.2.1)) ++ tsbForms o a ++ trbForms o a →
    let ea := form.2.ea s
    let locked (write : Bool) (at_ : Addr) : Access := { kind := .data, write := write, addr := at_, lock := true }
    accesses form.1 s = fetches s 0 form.2.length ++
      (match wm s with
        | .w8 => [locked false ea.a0, locked true ea.a0]
        | .w16 => [locked false ea.a0, locked false ea.a1, locked true ea.a1, locked true ea.a0])

/-! ## Interrupts, wait, stop, reset -/

/-- R301: the vectors. -/
def Obligations.Vectors : Prop :=
  vector .cop true = 0xFFF4 ∧ vector .cop false = 0xFFE4 ∧ vector .brk true = 0xFFFE ∧ vector .brk false = 0xFFE6 ∧
  vector .abort true = 0xFFF8 ∧ vector .abort false = 0xFFE8 ∧ vector .nmi true = 0xFFFA ∧
  vector .nmi false = 0xFFEA ∧ vector .irq true = 0xFFFE ∧ vector .irq false = 0xFFEE ∧ resetVector = 0xFFFC

/-- R223, R224, R302, R310: BRK and COP enter their handler with the return address `PC + 2`, whatever `i` is and
whatever the signature byte. COP's stacked bit 4 and the clearing of DBR are the spec's readings (logs 21, 14). -/
def Obligations.SoftwareInterrupts : Prop :=
  ∀ (s : State) (sig : Byte),
    (∃ t, exec (.brk sig) s = .next t ∧ Enters .brk (s.pc + 2) s t) ∧
    (∃ t, exec (.cop sig) s = .next t ∧ Enters .cop (s.pc + 2) s t)

/-- R305 to R308, R312: a running processor takes ABORT, else NMI, else an IRQ that `i` does not mask, before the
instruction, with the return address `PC`. The order is INT_PRIORITY's default (log 13); ABORT is the reading of log
12. -/
def Obligations.HardwareInterrupts : Prop :=
  ∀ s : State, s.run = .running → (inputsNow s).reset = false → s.params.intPriority = .abortNmiIrq →
    let u := latchInputs s
    (u.abortPending = true → ∃ t, step s = .next t ∧ Enters .abort s.pc u t) ∧
    (u.abortPending = false → u.nmiPending = true → ∃ t, step s = .next t ∧ Enters .nmi s.pc u t) ∧
    (u.abortPending = false → u.nmiPending = false → (inputsNow s).irq = true → getFlag s.p .i = false →
      ∃ t, step s = .next t ∧ Enters .irq s.pc u t)

/-- R304: an NMI event is remembered until it is taken, an ABORT event only when ABORT_SUPPORTED (log 12); IRQ leaves
nothing. Latching changes nothing else, but v by a Set Overflow pin (log 20). -/
def Obligations.LatchedEvents : Prop :=
  ∀ s : State,
    latchInputs s = { s with
      inputs := s.inputs.tail, p := (latchInputs s).p
      nmiPending := (latchInputs s).nmiPending, abortPending := (latchInputs s).abortPending } ∧
    ((latchInputs s).nmiPending = true ↔ s.nmiPending = true ∨ (inputsNow s).nmi = true) ∧
    ((latchInputs s).abortPending = true ↔
      s.abortPending = true ∨ (s.params.abortSupported = true ∧ (inputsNow s).abort = true)) ∧
    flagsKept [.n, .m, .x, .d, .i, .z, .c] s.p (latchInputs s).p ∧
    (getFlag (latchInputs s).p .v = true ↔
      getFlag s.p .v = true ∨ (s.params.soPin = true ∧ (inputsNow s).setOverflow = true))

/-- R225, R314: RTI pulls P, then PC, and in native mode PBR; in emulation mode bits 5 and 4 of the pulled byte are
ignored. In native mode a restored x of 1 clears XH and YH (PRESUMED, log 9). -/
def Obligations.ReturnFromInterrupt : Prop :=
  (∀ s : State, s.e = false →
    let p := s.read (stackAddr (s.sp + 1))
    let short := getFlag p .x
    exec .rti s = .next { s with
      sp := s.sp + 4, p := p
      pc := joinBytes (s.read (stackAddr (s.sp + 3))) (s.read (stackAddr (s.sp + 2)))
      pbr := s.read (stackAddr (s.sp + 4))
      x := if short then extendByte (lowByte s.x) else s.x
      y := if short then extendByte (lowByte s.y) else s.y }) ∧
  (∀ s : State, s.e = true →
    let below (n : Byte) : Byte := s.read (bankAddr 0x00 (joinBytes 0x01 (lowByte s.sp + n)))
    exec .rti s = .next { s with
      sp := joinBytes 0x01 (lowByte s.sp + 3), p := below 1 ||| 0x30, pc := joinBytes (below 3) (below 2) })

/-- R310, R314, R315: RTI in the mode of entry undoes any interrupt entry, hardware or software: when the handler has put
the stack pointer back and left the stacked bytes alone, P, the return address, S and, in native mode, PBR are what they
were. -/
def Obligations.RtiUndoesEntry : Prop :=
  ∀ (src : Source) (ret : Word) (s h u : State), EmulationWidths s → EmulationStack s →
    let t := interruptEntry src ret s
    let frame := if s.e then [stackAddr s.sp, pageOneBelow s.sp 1, pageOneBelow s.sp 2]
      else [stackAddr s.sp, stackAddr (s.sp - 1), stackAddr (s.sp - 2), stackAddr (s.sp - 3)]
    h.e = t.e → h.sp = t.sp → (∀ a ∈ frame, h.read a = t.read a) → exec .rti h = .next u →
    u.p = s.p ∧ u.pc = ret ∧ u.sp = s.sp ∧ (s.e = false → u.pbr = s.pbr)

/-- R316: what a waiting processor does: NMI and an IRQ with `i = 0` enter their handler, an IRQ with `i = 1` ends the
wait alone, anything else keeps it waiting and drops an ABORT (C38). The order is INT_PRIORITY's default (log 13). -/
def Obligations.WaitingStep : Prop :=
  ∀ s : State, s.run = .waiting → (inputsNow s).reset = false → s.params.intPriority = .abortNmiIrq →
    let u := latchInputs s
    (u.nmiPending = true → ∃ t, step s = .next t ∧ Enters .nmi s.pc u t) ∧
    (u.nmiPending = false → (inputsNow s).irq = true → getFlag s.p .i = false →
      ∃ t, step s = .next t ∧ Enters .irq s.pc u t) ∧
    (u.nmiPending = false → (inputsNow s).irq = true → getFlag s.p .i = true →
      step s = .next { u with run := .running }) ∧
    (u.nmiPending = false → (inputsNow s).irq = false → step s = .next { u with abortPending := false })

/-- R304, R305, R317: a stopped processor answers a next state at every step until reset, and nothing changes in it but
what latching its inputs does: its inputs are used up (the model's field, log 4), an NMI event and, with ABORT_SUPPORTED
(log 12), an ABORT event set their latches, which nothing clears, and v is set by a Set Overflow pin alone (log 20). -/
def Obligations.StoppedUntilReset : Prop :=
  ∀ (k : Nat) (s : State), s.run = .stopped → (∀ inp ∈ s.inputs.take k, inp.reset = false) →
    Sys2Proof.core.run k s = .next { s with
      inputs := s.inputs.drop k
      nmiPending := s.nmiPending || (s.inputs.take k).any fun inp => inp.nmi
      abortPending := s.abortPending || (s.params.abortSupported && (s.inputs.take k).any fun inp => inp.abort)
      p := if s.params.soPin && (s.inputs.take k).any (fun inp => inp.setOverflow) then setFlag s.p .v true else s.p }

/-- R340, R341, R343 to R346: a step with the reset line active is a reset, in every run state and before every other
event. DBR is cleared and `i`, `d` written as the spec decides (log 33). -/
def Obligations.ResetStep : Prop :=
  ∀ s : State, (inputsNow s).reset = true →
    ∃ t, step s = .next t ∧
      t = { s with
        inputs := s.inputs.tail, e := true, p := t.p
        x := extendByte (lowByte s.x), y := extendByte (lowByte s.y), sp := joinBytes 0x01 (lowByte s.sp)
        d := 0x0000, dbr := 0x00, pbr := 0x00
        pc := joinBytes (s.read 0x00FFFD) (s.read 0x00FFFC)
        run := .running, nmiPending := false, abortPending := false } ∧
      getFlag t.p .m = true ∧ getFlag t.p .x = true ∧ getFlag t.p .i = true ∧ getFlag t.p .d = false ∧
      flagsKept [.n, .z, .c] s.p t.p ∧ getFlag t.p .v = getFlag (latchInputs s).p .v

/-! ## Addresses -/

/-- R112: direct location `k`: inside the page of DH in emulation mode with DL = 0, else a 16-bit sum in bank 0. -/
def Obligations.DirectLocations : Prop :=
  ∀ (s : State) (k : Nat),
    (s.e = true → lowByte s.d = 0x00 →
      (dp s k).toNat = (highByte s.d).toNat * 256 + k % 256 ∧
      (dpNext s k).toNat = (highByte s.d).toNat * 256 + (k + 1) % 256) ∧
    (s.e = false ∨ lowByte s.d ≠ 0x00 →
      (dp s k).toNat = (s.d.toNat + k) % 65536 ∧ (dpNext s k).toNat = (s.d.toNat + k + 1) % 65536)

/-- R114 to R128, R137: the effective address of every mode: where the low byte and the high byte of the datum are. The
modes through DBR, a long address or a long pointer are stated as numbers: the index is added to 24 bits and may carry
into the bank, and the high byte is at the next 24-bit address (the spec's decision D3, log 16). -/
def Obligations.EffectiveAddresses : Prop :=
  ∀ (s : State) (o : Byte) (a : Word) (l : Addr),
    let word (lo hi : Addr) : Nat := (s.read lo).toNat + 256 * (s.read hi).toNat
    let bank := s.dbr.toNat * 65536
    let direct (k : Nat) : Nat := word (dp s k) (dpNext s k)
    let p0 := dp s o.toNat
    let far := word p0 (inc16 p0) + 65536 * (s.read (inc16 (inc16 p0))).toNat
    let stack := bankAddr 0x00 (s.sp + extendByte o)
    let at_ (mode : Mode) (n : Nat) : Prop :=
      (mode.ea s).a0.toNat = n % 16777216 ∧ (mode.ea s).a1.toNat = (n + 1) % 16777216
    (Mode.dir o).ea s = { a0 := dp s o.toNat, a1 := dpNext s o.toNat } ∧
    (Mode.dirX o).ea s = { a0 := dp s (o.toNat + s.x.toNat), a1 := dpNext s (o.toNat + s.x.toNat) } ∧
    (Mode.dirY o).ea s = { a0 := dp s (o.toNat + s.y.toNat), a1 := dpNext s (o.toNat + s.y.toNat) } ∧
    ((Mode.stk o).ea s).a0.toNat = (s.sp.toNat + o.toNat) % 65536 ∧
    ((Mode.stk o).ea s).a1.toNat = (s.sp.toNat + o.toNat + 1) % 65536 ∧
    at_ (.dirInd o) (bank + direct o.toNat) ∧
    at_ (.dirIndY o) (bank + direct o.toNat + s.y.toNat) ∧
    at_ (.dirXInd o) (bank + direct (o.toNat + s.x.toNat)) ∧
    at_ (.dirLong o) far ∧ at_ (.dirLongY o) (far + s.y.toNat) ∧
    at_ (.abs a) (bank + a.toNat) ∧ at_ (.absX a) (bank + a.toNat + s.x.toNat) ∧
    at_ (.absY a) (bank + a.toNat + s.y.toNat) ∧
    at_ (.long l) l.toNat ∧ at_ (.longX l) (l.toNat + s.x.toNat) ∧
    at_ (.stkIndY o) (bank + word stack (inc16 stack) + s.y.toNat)

/-- R111: `ReadData` is little-endian over the two addresses of the operand and does not use the second at 8 bits;
reading a datum back after writing it gives its low `w` bits, in every mode. -/
def Obligations.DataThroughModes : Prop :=
  ∀ (s : State) (mode : Mode) (v : Word),
    let ea := mode.ea s
    (readData ea .w8 s).toNat = (s.read ea.a0).toNat ∧
    (readData ea .w16 s).toNat = (s.read ea.a0).toNat + 256 * (s.read ea.a1).toNat ∧
    (∀ w, readData ea w (writeData ea w v s) = truncTo w v) ∧
    (∀ w, readData ea w (writeBack ea w v s) = truncTo w v)

/-- R140, R142: the stack pointer after a push and before the read of a pull: inside page 1 in emulation mode, inside
bank 0 in native mode; a push writes one byte at the old pointer, a pull reads at the new one. -/
def Obligations.StackPrimitives : Prop :=
  ∀ (s : State) (v : Byte),
    (push8 v s = { s with mem := (push8 v s).mem, sp := (push8 v s).sp } ∧
      (push8 v s).read (bankAddr 0x00 s.sp) = v ∧ memoryKept [bankAddr 0x00 s.sp] s (push8 v s) ∧
      (push8 v s).sp.toNat =
        if s.e then 256 + (s.sp.toNat + 255) % 256 else (s.sp.toNat + 65535) % 65536) ∧
    (pull8 s = (s.read (bankAddr 0x00 (pull8 s).2.sp), { s with sp := (pull8 s).2.sp }) ∧
      (pull8 s).2.sp.toNat = if s.e then 256 + (s.sp.toNat + 1) % 256 else (s.sp.toNat + 1) % 65536)

/-! ## Arithmetic and compare -/

/-- R150 in binary mode: every form of ADC. -/
def Obligations.AdcBinary : Prop :=
  ∀ (s : State) (v a : Word) (o : Byte) (l : Addr) (form : Instr × Operand), form ∈ adcForms v o a l →
    getFlag s.p .d = false →
    let w := wm s
    let old := accAt w s
    let b := form.2.value w s
    let sum := old.toNat + b.toNat + bitNat (getFlag s.p .c)
    ∃ t, exec form.1 s = .next t ∧
      t = { s with c := t.c, p := t.p, pc := s.pc + BitVec.ofNat 16 (form.2.length w) } ∧
      (accAt w t).toNat = sum % 2 ^ widthBits w ∧ (w = .w8 → highByte t.c = highByte s.c) ∧
      (getFlag t.p .c = true ↔ 2 ^ widthBits w ≤ sum) ∧
      (getFlag t.p .v = true ↔ msbAt w old = msbAt w b ∧ msbAt w t.c ≠ msbAt w old) ∧
      nzOf w (accAt w t) t.p ∧ flagsKept [.m, .x, .d, .i] s.p t.p

/-- R151 in binary mode: every form of SBC. -/
def Obligations.SbcBinary : Prop :=
  ∀ (s : State) (v a : Word) (o : Byte) (l : Addr) (form : Instr × Operand), form ∈ sbcForms v o a l →
    getFlag s.p .d = false →
    let w := wm s
    let old := accAt w s
    let b := form.2.value w s
    let taken := b.toNat + bitNat (!getFlag s.p .c)
    ∃ t, exec form.1 s = .next t ∧
      t = { s with c := t.c, p := t.p, pc := s.pc + BitVec.ofNat 16 (form.2.length w) } ∧
      (accAt w t).toNat = (old.toNat + 2 ^ widthBits w - taken) % 2 ^ widthBits w ∧
      (w = .w8 → highByte t.c = highByte s.c) ∧
      (getFlag t.p .c = true ↔ taken ≤ old.toNat) ∧
      (getFlag t.p .v = true ↔ msbAt w old ≠ msbAt w b ∧ msbAt w t.c ≠ msbAt w old) ∧
      nzOf w (accAt w t) t.p ∧ flagsKept [.m, .x, .d, .i] s.p t.p

/-- R150, R151: the two readings of v agree: the sum or difference of the signed values with the carry in falls outside
the signed range exactly when the bit formula says so; and SBC is ADC of the complement (R151). -/
def Obligations.OverflowAndComplement : Prop :=
  ∀ (w : Width) (a b : Word) (cin : Bool), truncTo w a = a → truncTo w b = b →
    let flipped := truncTo w (~~~b)
    binarySub w a b cin = binaryAdd w a flipped cin ∧
    ((binaryAdd w a b cin).overflow = true ↔
      ¬(-(2 ^ (widthBits w - 1) : Int) ≤ signedAt w a + signedAt w b + bitNat cin ∧
        signedAt w a + signedAt w b + bitNat cin ≤ (2 ^ (widthBits w - 1) : Int) - 1)) ∧
    ((binaryAdd w a b cin).overflow = true ↔
      msbAt w a = msbAt w b ∧ msbAt w (binaryAdd w a b cin).value ≠ msbAt w a)

/-- R150, R152 in decimal mode: every form of ADC completes; on valid decimal operands the result is their decimal sum
and c its carry. The algorithm is the spec's from general knowledge (PRESUMED, log 8); v and the result of other operands
are DEC_V's and DEC_INVALID's (logs 6, 7). -/
def Obligations.AdcDecimal : Prop :=
  ∀ (s : State) (v a : Word) (o : Byte) (l : Addr) (form : Instr × Operand), form ∈ adcForms v o a l →
    getFlag s.p .d = true →
    let w := wm s
    let digits := 2 * widthBytes w
    let old := accAt w s
    let b := form.2.value w s
    ∃ t, exec form.1 s = .next t ∧
      t = { s with c := t.c, p := t.p, pc := s.pc + BitVec.ofNat 16 (form.2.length w) } ∧
      (w = .w8 → highByte t.c = highByte s.c) ∧ nzOf w (accAt w t) t.p ∧ flagsKept [.m, .x, .d, .i] s.p t.p ∧
      (validBcd w old = true → validBcd w b = true →
        validBcd w (accAt w t) = true ∧
        bcdValue digits (accAt w t).toNat + 10 ^ digits * bitNat (getFlag t.p .c) =
          bcdValue digits old.toNat + bcdValue digits b.toNat + bitNat (getFlag s.p .c))

/-- R151, R152 in decimal mode: every form of SBC completes; on valid decimal operands the result is their decimal
difference and c is 1 when there is no borrow. As for ADC (logs 6, 7, 8). -/
def Obligations.SbcDecimal : Prop :=
  ∀ (s : State) (v a : Word) (o : Byte) (l : Addr) (form : Instr × Operand), form ∈ sbcForms v o a l →
    getFlag s.p .d = true →
    let w := wm s
    let digits := 2 * widthBytes w
    let old := accAt w s
    let b := form.2.value w s
    ∃ t, exec form.1 s = .next t ∧
      t = { s with c := t.c, p := t.p, pc := s.pc + BitVec.ofNat 16 (form.2.length w) } ∧
      (w = .w8 → highByte t.c = highByte s.c) ∧ nzOf w (accAt w t) t.p ∧ flagsKept [.m, .x, .d, .i] s.p t.p ∧
      (validBcd w old = true → validBcd w b = true →
        validBcd w (accAt w t) = true ∧
        bcdValue digits (accAt w t).toNat + bcdValue digits b.toNat + bitNat (!getFlag s.p .c) =
          bcdValue digits old.toNat + 10 ^ digits * bitNat (!getFlag t.p .c))

/-- R153 to R155: every form of CMP, CPX and CPY writes n, z and c as an unsigned comparison and changes nothing else. -/
def Obligations.Compares : Prop :=
  ∀ (s : State) (v a : Word) (o : Byte) (l : Addr) (form : (Instr × Operand) × Width × Word),
    form ∈ ((cmpForms v o a l).map fun f => (f, wm s, s.c)) ++ ((cpxForms v o a).map fun f => (f, wx s, s.x)) ++
      ((cpyForms v o a).map fun f => (f, wx s, s.y)) →
    let w := form.2.1
    let reg := (truncTo w form.2.2).toNat
    let b := (form.1.2.value w s).toNat
    ∃ t, exec form.1.1 s = .next t ∧
      t = { s with p := t.p, pc := s.pc + BitVec.ofNat 16 (form.1.2.length w) } ∧
      (getFlag t.p .c = true ↔ b ≤ reg) ∧ (getFlag t.p .z = true ↔ reg = b) ∧
      (getFlag t.p .n = true ↔ 2 ^ (widthBits w - 1) ≤ (reg + 2 ^ widthBits w - b) % 2 ^ widthBits w) ∧
      flagsKept [.v, .m, .x, .d, .i] s.p t.p

/-! ## Logic -/

/-- R160 to R162: every form of AND, EOR and ORA: each bit of the operation's width by its truth table, B kept at 8
bits. -/
def Obligations.LogicInstructions : Prop :=
  ∀ (s : State) (v a : Word) (o : Byte) (l : Addr) (form : (Instr × Operand) × (Bool → Bool → Bool)),
    form ∈ ((andForms v o a l).map fun f => (f, fun p q => p && q)) ++
      ((eorForms v o a l).map fun f => (f, fun p q => p != q)) ++
      ((oraForms v o a l).map fun f => (f, fun p q => p || q)) →
    let w := wm s
    let b := form.1.2.value w s
    ∃ t, exec form.1.1 s = .next t ∧
      t = { s with c := t.c, p := t.p, pc := s.pc + BitVec.ofNat 16 (form.1.2.length w) } ∧
      (∀ k, k < widthBits w → t.c.getLsbD k = form.2 (s.c.getLsbD k) (b.getLsbD k)) ∧
      (∀ k, widthBits w ≤ k → t.c.getLsbD k = s.c.getLsbD k) ∧
      nzOf w (accAt w t) t.p ∧ flagsKept [.v, .m, .x, .d, .i, .c] s.p t.p

/-- R163: BIT writes z from the AND of accumulator and operand; with a memory operand also n and v from its two top
bits; nothing else. -/
def Obligations.BitTest : Prop :=
  ∀ (s : State) (v a : Word) (o : Byte),
    let w := wm s
    let meets (b : Word) : Prop := ∃ k, k < widthBits w ∧ s.c.getLsbD k = true ∧ b.getLsbD k = true
    (∃ t, exec (.bitImm v) s = .next t ∧ t = { s with p := t.p, pc := s.pc + BitVec.ofNat 16 (1 + widthBytes w) } ∧
      (getFlag t.p .z = false ↔ meets v) ∧ flagsKept [.n, .v, .m, .x, .d, .i, .c] s.p t.p) ∧
    (∀ form ∈ bitMemoryForms o a,
      let b := form.2.value w s
      ∃ t, exec form.1 s = .next t ∧ t = { s with p := t.p, pc := s.pc + BitVec.ofNat 16 (form.2.length w) } ∧
        (getFlag t.p .z = false ↔ meets b) ∧ getFlag t.p .n = b.getLsbD (widthBits w - 1) ∧
        getFlag t.p .v = b.getLsbD (widthBits w - 2) ∧ flagsKept [.m, .x, .d, .i, .c] s.p t.p)

/-- R164, R165: every form of TRB and TSB clears or sets in memory the bits that are 1 in the accumulator, and writes z
alone, from the bits before. The address stored to is the mode's effective address. -/
def Obligations.TestAndChangeBits : Prop :=
  ∀ (s : State) (o : Byte) (a : Word) (form : (Instr × Mode) × Bool),
    form ∈ ((trbForms o a).map fun f => (f, false)) ++ ((tsbForms o a).map fun f => (f, true)) →
    let w := wm s
    let ea := form.1.2.ea s
    let old := readData ea w s
    ∃ t, exec form.1.1 s = .next t ∧
      t = { s with mem := t.mem, p := t.p, pc := s.pc + BitVec.ofNat 16 form.1.2.length } ∧
      (∀ k, k < widthBits w → (readData ea w t).getLsbD k = if s.c.getLsbD k then form.2 else old.getLsbD k) ∧
      memoryKept (datumBytes ea w) s t ∧
      (getFlag t.p .z = true ↔ ∀ k, k < widthBits w → ¬(s.c.getLsbD k = true ∧ old.getLsbD k = true)) ∧
      flagsKept [.n, .v, .m, .x, .d, .i, .c] s.p t.p

/-! ## Shift, rotate, increment, decrement -/

/-- R170 to R174, R177, R138: every form of ASL, LSR, ROL, ROR, DEC and INC, on the accumulator (B kept at 8 bits) and
on memory (at the mode's effective address). -/
def Obligations.ShiftsAndSteps : Prop :=
  ∀ (s : State) (o : Byte) (a : Word),
    let w := wm s
    let bits := widthBits w
    let cin := getFlag s.p .c
    let flags (k : Modification) (old new : Word) (p : Byte) : Prop :=
      new.toNat = k.result bits (bitNat cin) old.toNat ∧ getFlag p .c = k.carry bits cin old.toNat ∧ nzOf w new p ∧
        flagsKept [.v, .m, .x, .d, .i] s.p p
    (∀ form ∈ accumulatorForms, ∃ t, exec form.1 s = .next t ∧
      t = { s with c := t.c, p := t.p, pc := s.pc + 1 } ∧ (w = .w8 → highByte t.c = highByte s.c) ∧
      flags form.2 (accAt w s) (accAt w t) t.p) ∧
    (∀ form ∈ modifyForms o a,
      let ea := form.2.1.ea s
      ∃ t, exec form.1 s = .next t ∧
        t = { s with mem := t.mem, p := t.p, pc := s.pc + BitVec.ofNat 16 form.2.1.length } ∧
        memoryKept (datumBytes ea w) s t ∧ flags form.2.2 (readData ea w s) (readData ea w t) t.p)

/-- R175, R176, R178, R179: DEX, DEY, INX, INY count modulo the index width, with n and z of the result. -/
def Obligations.IndexSteps : Prop :=
  ∀ s : State,
    let w := wx s
    let size := 2 ^ widthBits w
    let counted (old new : Word) (up : Bool) (p : Byte) : Prop :=
      new.toNat = (old.toNat % size + if up then 1 else size - 1) % size ∧ nzOf w new p ∧
        flagsKept [.v, .m, .x, .d, .i, .c] s.p p
    (∃ t, exec .inx s = .next t ∧ t = { s with x := t.x, p := t.p, pc := s.pc + 1 } ∧ counted s.x t.x true t.p) ∧
    (∃ t, exec .dex s = .next t ∧ t = { s with x := t.x, p := t.p, pc := s.pc + 1 } ∧ counted s.x t.x false t.p) ∧
    (∃ t, exec .iny s = .next t ∧ t = { s with y := t.y, p := t.p, pc := s.pc + 1 } ∧ counted s.y t.y true t.p) ∧
    (∃ t, exec .dey s = .next t ∧ t = { s with y := t.y, p := t.p, pc := s.pc + 1 } ∧ counted s.y t.y false t.p)

/-! ## Branches and jumps -/

/-- R185 to R192, R194, R195: the nine 8-bit branches: the target is the address of the next instruction plus the signed
displacement, modulo 2^16; nothing but PC changes. -/
def Obligations.Branches : Prop :=
  ∀ (s : State) (r : Byte),
    let taken := BitVec.ofInt 16 ((s.pc.toNat : Int) + 2 + r.toInt)
    exec (.bra r) s = .next { s with pc := taken } ∧
    ∀ form ∈ conditionalBranches r,
      exec form.1 s = .next { s with pc := if getFlag s.p form.2.1 = form.2.2 then taken else s.pc + 2 }

/-- R193, R215, R216: BRL, JMP and JML: PC and, for JML, PBR; nothing else. The sum of the (abs,X) table wraps in the
program bank (the spec's decision D2, log 15). -/
def Obligations.Jumps : Prop :=
  ∀ (s : State) (r a : Word) (l : Addr),
    let zero (n : Word) : Byte := s.read (bankAddr 0x00 (a + n))
    let table (n : Word) : Byte := s.read (bankAddr s.pbr (a + s.x + n))
    exec (.brl r) s = .next { s with pc := BitVec.ofNat 16 (s.pc.toNat + 3 + r.toNat) } ∧
    exec (.jmpAbs a) s = .next { s with pc := a } ∧
    exec (.jmpAbsInd a) s = .next { s with pc := joinBytes (zero 1) (zero 0) } ∧
    exec (.jmpAbsXInd a) s = .next { s with pc := joinBytes (table 1) (table 0) } ∧
    exec (.jmlLong l) s =
      .next { s with pc := BitVec.ofNat 16 l.toNat, pbr := BitVec.ofNat 8 (l.toNat / 65536) } ∧
    exec (.jmlAbsLong a) s = .next { s with pc := joinBytes (zero 1) (zero 0), pbr := zero 2 }

/-- R217, R218: JSR and JSL push the address of their last byte, high byte first (JSL the bank before it) and jump. The
operand byte that JSR (abs,X) and JSL fetch after their pushes is `lateFetch` (log 19). The intermediate stack pointer of
the two in emulation mode is the spec's decision D3 (log 16), and the wrap of the (abs,X) table sum in the program bank
its decision D2 (R134, log 15). -/
def Obligations.SubroutineCalls : Prop :=
  ∀ (s : State) (a : Word) (l : Addr),
    let second := stackAddr (pushPointer s.e s.sp)
    let wide (n : Word) : Word := if s.e then joinBytes 0x01 (lowByte (s.sp - n)) else s.sp - n
    (∃ t, exec (.jsrAbs a) s = .next t ∧
      t = { s with mem := t.mem, sp := pushPointer s.e (pushPointer s.e s.sp), pc := a } ∧
      t.read (stackAddr s.sp) = highByte (s.pc + 2) ∧ t.read second = lowByte (s.pc + 2) ∧
      memoryKept [stackAddr s.sp, second] s t) ∧
    (∃ t, exec (.jsrAbsXInd a) s = .next t ∧
      t = { s with mem := t.mem, sp := wide 2, pc := t.pc } ∧
      t.read (stackAddr s.sp) = highByte (s.pc + 2) ∧ t.read (stackAddr (s.sp - 1)) = lowByte (s.pc + 2) ∧
      memoryKept [stackAddr s.sp, stackAddr (s.sp - 1)] s t ∧
      let table := joinBytes (lateFetch s t 2 (highByte a)) (lowByte a) + s.x
      t.pc = joinBytes (t.read (bankAddr s.pbr (table + 1))) (t.read (bankAddr s.pbr table))) ∧
    (∃ t, exec (.jsl l) s = .next t ∧
      t = { s with mem := t.mem, sp := wide 3, pc := offsetOf l, pbr := t.pbr } ∧
      t.read (stackAddr s.sp) = s.pbr ∧ t.read (stackAddr (s.sp - 1)) = highByte (s.pc + 3) ∧
      t.read (stackAddr (s.sp - 2)) = lowByte (s.pc + 3) ∧
      memoryKept [stackAddr s.sp, stackAddr (s.sp - 1), stackAddr (s.sp - 2)] s t ∧
      t.pbr = lateFetch s (s.write (stackAddr s.sp) s.pbr) 3 (bankOf l))

/-- R64, R69, R81: the bank byte of a JSL that is fetched from memory is the byte there after the push of PBR: the pushed
PBR when the push fell on it, else the byte the instruction had (log 19). -/
def Obligations.LateBankByte : Prop :=
  ∀ (s t : State) (l : Addr), Undisturbed s → bytesAtPc s (encode true true (.jsl l)) → step s = .next t →
    t.pbr = if stackAddr s.sp = bankAddr s.pbr (s.pc + 3) then s.pbr else bankOf l

/-- R219, R220: RTS and RTL pull the return address and add 1, without a carry into PBR. -/
def Obligations.SubroutineReturns : Prop :=
  ∀ s : State,
    let sp1 := pullPointer s.e s.sp
    let sp2 := pullPointer s.e sp1
    let up (n : Word) : Byte := s.read (stackAddr (s.sp + n))
    exec .rts s = .next { s with sp := sp2, pc := joinBytes (s.read (stackAddr sp2)) (s.read (stackAddr sp1)) + 1 } ∧
    exec .rtl s = .next { s with
      sp := if s.e then joinBytes 0x01 (lowByte (s.sp + 3)) else s.sp + 3
      pc := joinBytes (up 2) (up 1) + 1, pbr := up 3 }

/-- R217 to R220: RTS undoes JSR, and in native mode RTL undoes JSL: when the subroutine has put the stack pointer back and left the
stacked bytes alone, execution goes on after the call, with the stack pointer of before it; RTL also restores PBR. -/
def Obligations.ReturnsUndoCalls : Prop :=
  (∀ (s t h u : State) (a : Word), EmulationStack s → exec (.jsrAbs a) s = .next t → h.e = t.e → h.sp = t.sp →
    (∀ b ∈ [stackAddr s.sp, stackAddr (pushPointer s.e s.sp)], h.read b = t.read b) → exec .rts h = .next u →
    u.pc = s.pc + 3 ∧ u.sp = s.sp) ∧
  (∀ (s t h u : State) (l : Addr), s.e = false → exec (.jsl l) s = .next t → h.e = t.e → h.sp = t.sp →
    (∀ b ∈ [stackAddr s.sp, stackAddr (s.sp - 1), stackAddr (s.sp - 2)], h.read b = t.read b) →
    exec .rtl h = .next u → u.pc = s.pc + 4 ∧ u.pbr = s.pbr ∧ u.sp = s.sp)

/-- R221, R222, R226, R227: NOP and WDM only advance PC; WAI and STP advance PC and change the run state. -/
def Obligations.IdleInstructions : Prop :=
  ∀ (s : State) (sig : Byte),
    exec .nop s = .next { s with pc := s.pc + 1 } ∧ exec (.wdm sig) s = .next { s with pc := s.pc + 2 } ∧
    exec .wai s = .next { s with pc := s.pc + 1, run := .waiting } ∧
    exec .stp s = .next { s with pc := s.pc + 1, run := .stopped }

/-! ## Flags and mode -/

/-- R200 to R206: CLC, CLD, CLI, CLV, SEC, SED and SEI write one flag and nothing else. -/
def Obligations.FlagInstructions : Prop :=
  ∀ (s : State), ∀ form ∈ flagInstructions,
    ∃ t, exec form.1 s = .next t ∧ t = { s with p := t.p, pc := s.pc + 1 } ∧
      ∀ f, getFlag t.p f = if f = form.2.1 then form.2.2 else getFlag s.p f

/-- R207: REP clears the flags its mask selects; in emulation mode m and x stay. -/
def Obligations.RepInstruction : Prop :=
  ∀ (s : State) (mask : Byte),
    ∃ t, exec (.rep mask) s = .next t ∧ t = { s with p := t.p, pc := s.pc + 2 } ∧
      ∀ f, getFlag t.p f = (getFlag s.p f && !(getFlag mask f && !(s.e && (f == .m || f == .x))))

/-- R208: SEP sets the flags its mask selects; in emulation mode m and x stay. Where x is 1 afterwards XH and YH are $00
(PRESUMED in native mode, log 9). -/
def Obligations.SepInstruction : Prop :=
  ∀ (s : State) (mask : Byte),
    ∃ t, exec (.sep mask) s = .next t ∧ t = { s with p := t.p, x := t.x, y := t.y, pc := s.pc + 2 } ∧
      (∀ f, getFlag t.p f = (getFlag s.p f || (getFlag mask f && !(s.e && (f == .m || f == .x))))) ∧
      t.x = (if getFlag t.p .x then extendByte (lowByte s.x) else s.x) ∧
      t.y = (if getFlag t.p .x then extendByte (lowByte s.y) else s.y)

/-- R209, R31: XCE exchanges c and e. When emulation mode results, m, x, XH, YH and SH are forced; when native mode
results nothing else changes (the spec's decision D13, log 27). -/
def Obligations.XceInstruction : Prop :=
  ∀ s : State,
    ∃ t, exec .xce s = .next t ∧
      t = { s with e := getFlag s.p .c, p := t.p, x := t.x, y := t.y, sp := t.sp, pc := s.pc + 1 } ∧
      getFlag t.p .c = s.e ∧ flagsKept [.n, .v, .d, .i, .z] s.p t.p ∧
      (t.e = true → getFlag t.p .m = true ∧ getFlag t.p .x = true ∧ t.x = extendByte (lowByte s.x) ∧
        t.y = extendByte (lowByte s.y) ∧ t.sp = joinBytes 0x01 (lowByte s.sp)) ∧
      (t.e = false → flagsKept [.m, .x] s.p t.p ∧ t.x = s.x ∧ t.y = s.y ∧ t.sp = s.sp)

/-! ## Load, store, block move -/

/-- R240 to R242: every form of LDA, LDX and LDY: the register, n and z. -/
def Obligations.Loads : Prop :=
  ∀ (s : State) (v a : Word) (o : Byte) (l : Addr),
    (∀ form ∈ ldaForms v o a l, ∃ t, exec form.1 s = .next t ∧
      t = { s with c := t.c, p := t.p, pc := s.pc + BitVec.ofNat 16 (form.2.length (wm s)) } ∧
      accAt (wm s) t = form.2.value (wm s) s ∧ (wm s = .w8 → highByte t.c = highByte s.c) ∧
      nzOf (wm s) (form.2.value (wm s) s) t.p ∧ flagsKept [.v, .m, .x, .d, .i, .c] s.p t.p) ∧
    (∀ form ∈ ldxForms v o a, ∃ t, exec form.1 s = .next t ∧
      t = { s with
        x := form.2.value (wx s) s, p := t.p, pc := s.pc + BitVec.ofNat 16 (form.2.length (wx s)) } ∧
      nzOf (wx s) t.x t.p ∧ flagsKept [.v, .m, .x, .d, .i, .c] s.p t.p) ∧
    (∀ form ∈ ldyForms v o a, ∃ t, exec form.1 s = .next t ∧
      t = { s with
        y := form.2.value (wx s) s, p := t.p, pc := s.pc + BitVec.ofNat 16 (form.2.length (wx s)) } ∧
      nzOf (wx s) t.y t.p ∧ flagsKept [.v, .m, .x, .d, .i, .c] s.p t.p)

/-- R243 to R246: every form of STA, STX, STY and STZ stores the register's low `w` bits, or zero, at the mode's
effective address, and writes no flag. -/
def Obligations.Stores : Prop :=
  ∀ (s : State) (a : Word) (o : Byte) (l : Addr) (form : (Instr × Mode) × Width × Word),
    form ∈ ((staForms o a l).map fun f => (f, wm s, s.c)) ++ ((stxForms o a).map fun f => (f, wx s, s.x)) ++
      ((styForms o a).map fun f => (f, wx s, s.y)) ++ ((stzForms o a).map fun f => (f, wm s, 0x0000)) →
    let w := form.2.1
    let ea := form.1.2.ea s
    ∃ t, exec form.1.1 s = .next t ∧
      t = { s with mem := t.mem, pc := s.pc + BitVec.ofNat 16 form.1.2.length } ∧
      t.read ea.a0 = lowByte form.2.2 ∧ (w = .w16 → t.read ea.a1 = highByte form.2.2) ∧
      memoryKept (datumBytes ea w) s t

/-- R249, R247, R248: one byte of MVN or MVP: it is copied, X and Y count at the index width, C counts down as 16 bits,
PC advances by 3 after the last byte alone. That C ends at $FFFF and that DBR takes the destination bank are the spec's
decision D14 (logs 26, 11). -/
def Obligations.BlockMoveByte : Prop :=
  ∀ (s : State) (dst src : Byte) (form : Instr × Word), form ∈ [(.mvn dst src, 1), (.mvp dst src, 0xFFFF)] →
    ∃ t, exec form.1 s = .next t ∧
      t = { s with
        mem := t.mem, c := s.c - 1, x := truncTo (wx s) (s.x + form.2), y := truncTo (wx s) (s.y + form.2)
        dbr := if s.params.blockMoveSetsDbr then dst else s.dbr
        pc := if s.c = 0x0000 then s.pc + 3 else s.pc } ∧
      t.read (bankAddr dst s.y) = s.read (bankAddr src s.x) ∧ memoryKept [bankAddr dst s.y] s t

/-- R34, R247 to R249: the whole of a block move in native mode with 16-bit index registers, as `exec` repeated: after
`k` bytes with `k` at most C, PC is still at the instruction and C, X, Y have counted `k`; one byte after C of them have
been moved PC is past it, C is $FFFF, and X and Y have moved by the number of bytes. Only the destination bank is
written. -/
def Obligations.BlockMoveWhole : Prop :=
  ∀ (s : State) (dst src : Byte) (form : Instr × Word), form ∈ [(.mvn dst src, 1), (.mvp dst src, 0xFFFF)] →
    getFlag s.p .x = false →
    ∀ run : Nat → State, run 0 = s → (∀ k, exec form.1 (run k) = .next (run (k + 1))) →
    (∀ k, k ≤ s.c.toNat → (run k).pc = s.pc ∧ (run k).c.toNat = s.c.toNat - k ∧
      (run k).x = s.x + form.2 * BitVec.ofNat 16 k ∧ (run k).y = s.y + form.2 * BitVec.ofNat 16 k) ∧
    (run (s.c.toNat + 1)).pc = s.pc + 3 ∧ (run (s.c.toNat + 1)).c = 0xFFFF ∧
    (run (s.c.toNat + 1)).x = s.x + form.2 * (s.c + 1) ∧ (run (s.c.toNat + 1)).y = s.y + form.2 * (s.c + 1) ∧
    (∀ a : Addr, bankOf a ≠ dst → (run (s.c.toNat + 1)).read a = s.read a)

/-! ## Stack -/

/-- R258, R259, R261 to R264: PHA, PHX and PHY push their register at its width, high byte first; PHB, PHK and PHP push
one byte. That PHP pushes P as it is, in emulation mode too, is DEDUCED (R262, log 34), and that PHB and PHK wrap inside
page 1 in emulation mode is the spec's own inference (R144: "derived: from rule R141"). No flag is written. -/
def Obligations.RegisterPushes : Prop :=
  ∀ (s : State) (form : Instr × Width × Word),
    form ∈ [(.pha, wm s, s.c), (.phx, wx s, s.x), (.phy, wx s, s.y), (.phb, .w8, extendByte s.dbr),
      (.phk, .w8, extendByte s.pbr), (.php, .w8, extendByte s.p)] →
    let below := pushPointer s.e s.sp
    ∃ t, exec form.1 s = .next t ∧
      (match form.2.1 with
        | .w8 => t = { s with mem := t.mem, sp := below, pc := s.pc + 1 } ∧
            t.read (stackAddr s.sp) = lowByte form.2.2 ∧ memoryKept [stackAddr s.sp] s t
        | .w16 => t = { s with mem := t.mem, sp := pushPointer s.e below, pc := s.pc + 1 } ∧
            t.read (stackAddr s.sp) = highByte form.2.2 ∧ t.read (stackAddr below) = lowByte form.2.2 ∧
            memoryKept [stackAddr s.sp, stackAddr below] s t)

/-- R255 to R257, R260: PEA, PEI, PER and PHD push 16 bits whatever the flags are: the operand, the word at the direct
location, the program counter plus the displacement, D. The stack pointer leaves page 1 inside the instruction in
emulation mode (the spec's decision D3, log 16). -/
def Obligations.WordPushes : Prop :=
  ∀ (s : State) (v r : Word) (o : Byte) (form : Instr × Word × Word),
    form ∈ [(.pea v, v, 3),
      (.pei o, joinBytes (s.read (inc16 (dp s o.toNat))) (s.read (dp s o.toNat)), 2),
      (.per r, BitVec.ofNat 16 (s.pc.toNat + 3 + r.toNat), 3), (.phd, s.d, 1)] →
    ∃ t, exec form.1 s = .next t ∧
      t = { s with
        mem := t.mem, sp := if s.e then joinBytes 0x01 (lowByte (s.sp - 2)) else s.sp - 2, pc := s.pc + form.2.2 } ∧
      t.read (stackAddr s.sp) = highByte form.2.1 ∧ t.read (stackAddr (s.sp - 1)) = lowByte form.2.1 ∧
      memoryKept [stackAddr s.sp, stackAddr (s.sp - 1)] s t

/-- R265, R266, R269, R270: PLA, PLX, PLY at their width and PLB pull their register, with n and z of the value; memory
is not written. That PLB wraps inside page 1 in emulation mode is the spec's own inference (R144: "derived: from rule
R141"). -/
def Obligations.RegisterPulls : Prop :=
  ∀ s : State,
    let sp1 := pullPointer s.e s.sp
    let sp2 := pullPointer s.e sp1
    let pulled (w : Width) : Word :=
      match w with
      | .w8 => extendByte (s.read (stackAddr sp1))
      | .w16 => joinBytes (s.read (stackAddr sp2)) (s.read (stackAddr sp1))
    let after (w : Width) : Word := match w with | .w8 => sp1 | .w16 => sp2
    let flags (w : Width) (p : Byte) : Prop := nzOf w (pulled w) p ∧ flagsKept [.v, .m, .x, .d, .i, .c] s.p p
    (∃ t, exec .pla s = .next t ∧ t = { s with c := t.c, sp := after (wm s), p := t.p, pc := s.pc + 1 } ∧
      accAt (wm s) t = pulled (wm s) ∧ (wm s = .w8 → highByte t.c = highByte s.c) ∧ flags (wm s) t.p) ∧
    (∃ t, exec .plx s = .next t ∧
      t = { s with x := pulled (wx s), sp := after (wx s), p := t.p, pc := s.pc + 1 } ∧ flags (wx s) t.p) ∧
    (∃ t, exec .ply s = .next t ∧
      t = { s with y := pulled (wx s), sp := after (wx s), p := t.p, pc := s.pc + 1 } ∧ flags (wx s) t.p) ∧
    (∃ t, exec .plb s = .next t ∧
      t = { s with dbr := s.read (stackAddr sp1), sp := sp1, p := t.p, pc := s.pc + 1 } ∧ flags .w8 t.p)

/-- R267, R268: PLD pulls 16 bits with the 16-bit stack pointer (D3, log 16); PLP loads P, in emulation mode without
bits 5 and 4, in native mode clearing XH and YH when x is 1 (PRESUMED, log 9). -/
def Obligations.DirectAndStatusPulls : Prop :=
  ∀ s : State,
    let d := joinBytes (s.read (stackAddr (s.sp + 2))) (s.read (stackAddr (s.sp + 1)))
    let sp1 := pullPointer s.e s.sp
    let p := s.read (stackAddr sp1)
    let short := !s.e && getFlag p .x
    (∃ t, exec .pld s = .next t ∧
      t = { s with
        d := d, sp := if s.e then joinBytes 0x01 (lowByte (s.sp + 2)) else s.sp + 2, p := t.p, pc := s.pc + 1 } ∧
      nzOf .w16 d t.p ∧ flagsKept [.v, .m, .x, .d, .i, .c] s.p t.p) ∧
    exec .plp s = .next { s with
      sp := sp1, pc := s.pc + 1, p := if s.e then p ||| 0x30 else p
      x := if short then extendByte (lowByte s.x) else s.x
      y := if short then extendByte (lowByte s.y) else s.y }

/-! ## Transfers -/

/-- R280 to R283, R286, R288, R289, R291: TAX, TAY, TSX, TXY, TYX take the source's low `wx` bits, all 16 bits of C with
x = 0 also when m = 1 (DEDUCED by the spec), with n and z at that width; TCD writes D with n and z of 16 bits; TCS and
TXS write S and no flag, in emulation mode with SH $01 (C36, log 28). -/
def Obligations.TransfersToIndexDirectAndStack : Prop :=
  ∀ s : State,
    let flags (w : Width) (v : Word) (p : Byte) : Prop := nzOf w v p ∧ flagsKept [.v, .m, .x, .d, .i, .c] s.p p
    (∀ form ∈ [((.tax : Instr), s.c), (.tsx, s.sp), (.tyx, s.y)], ∃ t, exec form.1 s = .next t ∧
      t = { s with x := t.x, p := t.p, pc := s.pc + 1 } ∧
      t.x.toNat = form.2.toNat % 2 ^ widthBits (wx s) ∧ flags (wx s) t.x t.p) ∧
    (∀ form ∈ [((.tay : Instr), s.c), (.txy, s.x)], ∃ t, exec form.1 s = .next t ∧
      t = { s with y := t.y, p := t.p, pc := s.pc + 1 } ∧
      t.y.toNat = form.2.toNat % 2 ^ widthBits (wx s) ∧ flags (wx s) t.y t.p) ∧
    (∃ t, exec .tcd s = .next t ∧ t = { s with d := s.c, p := t.p, pc := s.pc + 1 } ∧ flags .w16 s.c t.p) ∧
    ∀ form ∈ [((.tcs : Instr), s.c), (.txs, s.x)],
      exec form.1 s = .next { s with
        sp := BitVec.ofNat 16 (if s.e then 256 + form.2.toNat % 256 else form.2.toNat), pc := s.pc + 1 }

/-- R284, R285, R287, R290, R292: TXA and TYA write the accumulator at width `wm`, B kept at 8 bits; TDC and TSC write all
16 bits of C; XBA exchanges A and B, with n and z of the new A. -/
def Obligations.TransfersToAccumulator : Prop :=
  ∀ s : State,
    let flags (w : Width) (v : Word) (p : Byte) : Prop := nzOf w v p ∧ flagsKept [.v, .m, .x, .d, .i, .c] s.p p
    (∀ form ∈ [((.txa : Instr), s.x), (.tya, s.y)], ∃ t, exec form.1 s = .next t ∧
      t = { s with c := t.c, p := t.p, pc := s.pc + 1 } ∧
      (accAt (wm s) t).toNat = form.2.toNat % 2 ^ widthBits (wm s) ∧ (wm s = .w8 → highByte t.c = highByte s.c) ∧
      flags (wm s) (accAt (wm s) t) t.p) ∧
    (∀ form ∈ [((.tdc : Instr), s.d), (.tsc, s.sp)], ∃ t, exec form.1 s = .next t ∧
      t = { s with c := form.2, p := t.p, pc := s.pc + 1 } ∧ flags .w16 form.2 t.p) ∧
    (∃ t, exec .xba s = .next t ∧ t = { s with c := t.c, p := t.p, pc := s.pc + 1 } ∧
      lowByte t.c = highByte s.c ∧ highByte t.c = lowByte s.c ∧ flags .w8 (extendByte (highByte s.c)) t.p)
end

