-- ==== Sys2Proof/Laws/Bits.lean ====
section
/-! SUPPORT. Bytes, words and flags: the small laws of Machine/Bits.lean and of the flag operations. -/

namespace Sys2Proof.Machine

@[simp] theorem lowByte_extendByte (b : Byte) : lowByte (extendByte b) = b := by
  simp [lowByte, extendByte]

@[simp] theorem highByte_extendByte (b : Byte) : highByte (extendByte b) = 0 := by
  apply BitVec.eq_of_getLsbD_eq
  intro i hi
  simp [highByte, extendByte]

theorem toNat_joinBytes (high low : Byte) : (joinBytes high low).toNat = high.toNat * 256 + low.toNat := by
  have h := low.isLt
  have e : (joinBytes high low).toNat = high.toNat <<< 8 ||| low.toNat := BitVec.toNat_append ..
  rw [e, Nat.shiftLeft_eq, Nat.mul_comm, ← Nat.two_pow_add_eq_or_of_lt h]

theorem toNat_lowByte (v : Word) : (lowByte v).toNat = v.toNat % 256 := by
  simp [lowByte, BitVec.toNat_setWidth]

theorem toNat_highByte (v : Word) : (highByte v).toNat = v.toNat / 256 := by
  have h := v.isLt
  rw [highByte, BitVec.extractLsb'_toNat, Nat.shiftRight_eq_div_pow]
  omega

theorem toNat_extendByte (b : Byte) : (extendByte b).toNat = b.toNat := by
  have h := b.isLt
  simp only [extendByte, BitVec.toNat_setWidth]
  omega

@[simp] theorem lowByte_joinBytes (high low : Byte) : lowByte (joinBytes high low) = low := by
  apply BitVec.eq_of_toNat_eq
  have h := low.isLt
  rw [toNat_lowByte, toNat_joinBytes]
  omega

@[simp] theorem highByte_joinBytes (high low : Byte) : highByte (joinBytes high low) = high := by
  apply BitVec.eq_of_toNat_eq
  have h := low.isLt
  rw [toNat_highByte, toNat_joinBytes]
  omega

@[simp] theorem joinBytes_high_low (v : Word) : joinBytes (highByte v) (lowByte v) = v := by
  apply BitVec.eq_of_toNat_eq
  rw [toNat_joinBytes, toNat_highByte, toNat_lowByte]
  omega

theorem toNat_bankAddr (bank : Byte) (a : Word) : (bankAddr bank a).toNat = bank.toNat * 65536 + a.toNat := by
  have h := a.isLt
  have e : (bankAddr bank a).toNat = bank.toNat <<< 16 ||| a.toNat := BitVec.toNat_append ..
  rw [e, Nat.shiftLeft_eq, Nat.mul_comm, ← Nat.two_pow_add_eq_or_of_lt h]

theorem toNat_bankOf (a : Addr) : (bankOf a).toNat = a.toNat / 65536 := by
  have h := a.isLt
  rw [bankOf, BitVec.extractLsb'_toNat, Nat.shiftRight_eq_div_pow]
  omega

theorem toNat_offsetOf (a : Addr) : (offsetOf a).toNat = a.toNat % 65536 := by
  simp [offsetOf, BitVec.toNat_setWidth]

@[simp] theorem bankOf_bankAddr (bank : Byte) (a : Word) : bankOf (bankAddr bank a) = bank := by
  apply BitVec.eq_of_toNat_eq
  have h := a.isLt
  rw [toNat_bankOf, toNat_bankAddr]
  omega

@[simp] theorem offsetOf_bankAddr (bank : Byte) (a : Word) : offsetOf (bankAddr bank a) = a := by
  apply BitVec.eq_of_toNat_eq
  have h := a.isLt
  rw [toNat_offsetOf, toNat_bankAddr]
  omega

@[simp] theorem bankAddr_bankOf_offsetOf (a : Addr) : bankAddr (bankOf a) (offsetOf a) = a := by
  apply BitVec.eq_of_toNat_eq
  rw [toNat_bankAddr, toNat_bankOf, toNat_offsetOf]
  omega

@[simp] theorem inc16_bankAddr (bank : Byte) (a : Word) : inc16 (bankAddr bank a) = bankAddr bank (a + 1) := by
  simp [inc16]

theorem bankAddr_inj {bank bank' : Byte} {a a' : Word} :
    bankAddr bank a = bankAddr bank' a' ↔ bank = bank' ∧ a = a' := by
  constructor
  · intro h
    exact ⟨by simpa using congrArg bankOf h, by simpa using congrArg offsetOf h⟩
  · rintro ⟨rfl, rfl⟩; rfl

theorem joinBytes_inj {high high' low low' : Byte} :
    joinBytes high low = joinBytes high' low' ↔ high = high' ∧ low = low' := by
  constructor
  · intro h
    exact ⟨by simpa using congrArg highByte h, by simpa using congrArg lowByte h⟩
  · rintro ⟨rfl, rfl⟩; rfl

theorem inc16_ne (a : Addr) : inc16 a ≠ a := by
  intro h
  have := congrArg offsetOf h
  simp only [inc16, offsetOf_bankAddr] at this
  exact absurd this (by simp)

theorem inc24_ne (a : Addr) : inc24 a ≠ a := by simp [inc24]

@[simp] theorem truncTo_truncTo (w : Width) (v : Word) : truncTo w (truncTo w v) = truncTo w v := by
  cases w <;> simp [truncTo]

theorem toNat_truncTo (w : Width) (v : Word) : (truncTo w v).toNat = v.toNat % 2 ^ widthBits w := by
  cases w
  · simp [truncTo, widthBits, toNat_extendByte, toNat_lowByte]
  · have := v.isLt
    simp only [truncTo, widthBits]
    omega

theorem getLsbD_truncTo (w : Width) (v : Word) (k : Nat) :
    (truncTo w v).getLsbD k = (decide (k < widthBits w) && v.getLsbD k) := by
  cases w
  · by_cases h : k < 8
    · simp [truncTo, widthBits, extendByte, lowByte, h, show k < 16 by omega]
    · simp [truncTo, widthBits, extendByte, lowByte, h]
  · by_cases h : k < 16
    · simp [truncTo, widthBits, h]
    · simp [truncTo, widthBits, h, BitVec.getLsbD_of_ge v k (by omega)]

@[simp] theorem msbAt_truncTo (w : Width) (v : Word) : msbAt w (truncTo w v) = msbAt w v := by
  unfold msbAt
  rw [getLsbD_truncTo]
  cases w <;> simp [widthBits]

/-- The top bit of a value as a comparison. -/
theorem msbAt_iff (w : Width) (v : Word) :
    msbAt w v = true ↔ 2 ^ (widthBits w - 1) ≤ v.toNat % 2 ^ widthBits w := by
  have h := v.isLt
  cases w <;>
    · simp only [msbAt, BitVec.getLsbD, Nat.testBit_eq_decide_div_mod_eq, widthBits, decide_eq_true_eq]
      omega

theorem isZeroAt_iff (w : Width) (v : Word) : isZeroAt w v = true ↔ v.toNat % 2 ^ widthBits w = 0 := by
  rw [← toNat_truncTo]
  unfold isZeroAt
  rw [beq_iff_eq]
  exact ⟨fun h => by rw [h]; rfl, fun h => BitVec.eq_of_toNat_eq (by simpa using h)⟩

/-! ## Flags -/

theorem getFlag_setFlag (p : Byte) (f g : Flag) (b : Bool) :
    getFlag (setFlag p f b) g = if g = f then b else getFlag p g := by
  cases f <;> cases g <;> cases b <;> simp [getFlag, setFlag, flagMask, flagBit]

@[simp] theorem getFlag_setFlag_same (p : Byte) (f : Flag) (b : Bool) : getFlag (setFlag p f b) f = b := by
  simp [getFlag_setFlag]

@[simp] theorem setFlag_setFlag (p : Byte) (f : Flag) (b b' : Bool) : setFlag (setFlag p f b') f b = setFlag p f b := by
  revert p; cases f <;> cases b <;> cases b' <;> decide +kernel

theorem getFlag_setFlag_of_ne (p : Byte) (f g : Flag) (b : Bool) (h : g ≠ f) :
    getFlag (setFlag p f b) g = getFlag p g := by
  simp [getFlag_setFlag, h]

/-- Two status bytes with the same flags are equal. -/
theorem eq_of_getFlag_eq {p q : Byte} (h : ∀ f, getFlag p f = getFlag q f) : p = q := by
  apply BitVec.eq_of_getLsbD_eq
  intro i hi
  have hn := h .n
  have hv := h .v
  have hm := h .m
  have hx := h .x
  have hd := h .d
  have hi' := h .i
  have hz := h .z
  have hc := h .c
  simp only [getFlag, flagBit] at hn hv hm hx hd hi' hz hc
  interval_cases i <;> assumption

theorem getFlag_setNZ (w : Width) (v : Word) (p : Byte) (f : Flag) :
    getFlag (setNZ w v p) f = if f = .n then msbAt w v else if f = .z then isZeroAt w v else getFlag p f := by
  unfold setNZ
  cases f <;> simp [getFlag_setFlag]

theorem getFlag_and (p q : Byte) (f : Flag) : getFlag (p &&& q) f = (getFlag p f && getFlag q f) := by
  simp [getFlag]

theorem getFlag_or (p q : Byte) (f : Flag) : getFlag (p ||| q) f = (getFlag p f || getFlag q f) := by
  simp [getFlag]

theorem getFlag_not (p : Byte) (f : Flag) : getFlag (~~~p) f = !getFlag p f := by
  cases f <;> simp [getFlag, flagBit]

end Sys2Proof.Machine
end

