-- ==== Sys2Proof/Laws/Decode.lean ====
section
/-! SUPPORT. Decoding by form: what `decode` answers for the bytes of each form, and which operand bytes an instruction
depends on. -/

namespace Sys2Proof

open Machine

theorem decode_implied (m x : Bool) (op : Byte) (i : Instr) (rest : List Byte) (h : formOf op = .implied i) :
    decode m x (op :: rest) = .ok (i, rest) := by
  simp [decode, h, operandBytes, instrOf]

theorem decode_byte (m x : Bool) (op o1 : Byte) (f : Byte → Instr) (rest : List Byte) (h : formOf op = .byte f) :
    decode m x (op :: o1 :: rest) = .ok (f o1, rest) := by
  simp [decode, h, operandBytes, instrOf]

theorem decode_word (m x : Bool) (op : Byte) (v : Word) (f : Word → Instr) (rest : List Byte)
    (h : formOf op = .word f) : decode m x (op :: (wordBytes v ++ rest)) = .ok (f v, rest) := by
  simp [decode, h, operandBytes, instrOf, wordBytes]

theorem decode_long (m x : Bool) (op : Byte) (l : Addr) (f : Addr → Instr) (rest : List Byte)
    (h : formOf op = .long f) : decode m x (op :: (longBytes l ++ rest)) = .ok (f l, rest) := by
  simp [decode, h, operandBytes, instrOf, longBytes]

theorem decode_banks (m x : Bool) (op dst src : Byte) (f : Byte → Byte → Instr) (rest : List Byte)
    (h : formOf op = .banks f) : decode m x (op :: dst :: src :: rest) = .ok (f dst src, rest) := by
  simp [decode, h, operandBytes, instrOf]

/-- An immediate that fits is the value of its bytes. -/
theorem immValue_of_fits (flag : Bool) (v : Word) (o2 : Byte) (h : immFits flag v = true)
    (h2 : flag = false → o2 = highByte v) : immValue flag (lowByte v) o2 = v := by
  cases flag
  · simp [immValue, h2 rfl]
  · have hz : highByte v = 0x00 := by simpa [immFits] using h
    have h0 : v.toNat / 256 = 0 := by rw [← toNat_highByte, hz]; rfl
    apply BitVec.eq_of_toNat_eq
    simp only [immValue, if_true, toNat_extendByte, toNat_lowByte]
    omega

theorem decode_immM (m x : Bool) (op : Byte) (v : Word) (f : Word → Instr) (rest : List Byte)
    (h : formOf op = .immM f) (hf : immFits m v = true) :
    decode m x (op :: (immBytes m v ++ rest)) = .ok (f v, rest) := by
  cases m
  · simp [decode, h, operandBytes, instrOf, immBytes, wordBytes, immValue_of_fits false v _ hf]
  · simp [decode, h, operandBytes, instrOf, immBytes, immValue_of_fits true v _ hf]

theorem decode_immX (m x : Bool) (op : Byte) (v : Word) (f : Word → Instr) (rest : List Byte)
    (h : formOf op = .immX f) (hf : immFits x v = true) :
    decode m x (op :: (immBytes x v ++ rest)) = .ok (f v, rest) := by
  cases x
  · simp [decode, h, operandBytes, instrOf, immBytes, wordBytes, immValue_of_fits false v _ hf]
  · simp [decode, h, operandBytes, instrOf, immBytes, immValue_of_fits true v _ hf]

theorem operandBytes_le (m x : Bool) (f : Form) : operandBytes m x f ≤ 3 := by
  cases f <;> simp [operandBytes] <;> split <;> omega

/-- The instruction depends only on the operand bytes that it has. -/
theorem instrOf_congr (m x : Bool) (op a b c a' b' c' : Byte)
    (h1 : 1 ≤ operandBytes m x (formOf op) → a = a') (h2 : 2 ≤ operandBytes m x (formOf op) → b = b')
    (h3 : 3 ≤ operandBytes m x (formOf op) → c = c') : instrOf m x op a b c = instrOf m x op a' b' c' := by
  unfold instrOf
  cases hf : formOf op <;> simp [hf, operandBytes] at h1 h2 h3 <;> simp [*]
  · cases m <;> simp_all [immValue]
  · cases x <;> simp_all [immValue]

/-- What an answer of the decoder says of the bytes. -/
theorem decode_ok (m x : Bool) (op : Byte) (ops rest : List Byte) (i : Instr)
    (h : decode m x (op :: ops) = .ok (i, rest)) :
    operandBytes m x (formOf op) ≤ ops.length ∧ rest = ops.drop (operandBytes m x (formOf op)) ∧
      i = instrOf m x op (ops.getD 0 0) (ops.getD 1 0) (ops.getD 2 0) := by
  simp only [decode] at h
  split at h
  · cases h
  · injection h with h
    injection h with h1 h2
    exact ⟨by omega, h2.symm, h1.symm⟩

end Sys2Proof
end

