-- ==== Sys2Proof/Laws/Flags.lean ====
section
/-! SUPPORT. What every flag computation leaves in every flag: one lemma for each computation. -/

namespace Sys2Proof.Machine

theorem getFlag_arithFlags (w : Width) (r : ArithResult) (p : Byte) (f : Flag) :
    getFlag (arithFlags w r p) f =
      match f with
      | .n => msbAt w r.value
      | .v => r.overflow
      | .z => isZeroAt w r.value
      | .c => r.carry
      | .m | .x | .d | .i => getFlag p f := by
  cases f <;> simp [arithFlags, getFlag_setNZ, getFlag_setFlag]

theorem getFlag_compareFlags (w : Width) (a b : Word) (p : Byte) (f : Flag) :
    getFlag (compareFlags w a b p) f =
      match f with
      | .n => msbAt w (truncTo w (a - b))
      | .z => isZeroAt w (truncTo w (a - b))
      | .c => decide (b.toNat ≤ a.toNat)
      | .v | .m | .x | .d | .i => getFlag p f := by
  cases f <;> simp [compareFlags, getFlag_setNZ, getFlag_setFlag]

theorem getFlag_bitMemoryFlags (w : Width) (a b : Word) (p : Byte) (f : Flag) :
    getFlag (bitMemoryFlags w a b p) f =
      match f with
      | .n => msbAt w b
      | .v => nextMsbAt w b
      | .z => isZeroAt w (a &&& b)
      | .m | .x | .d | .i | .c => getFlag p f := by
  cases f <;> simp [bitMemoryFlags, getFlag_setFlag]

theorem getFlag_bitImmediateFlags (w : Width) (a b : Word) (p : Byte) (f : Flag) :
    getFlag (bitImmediateFlags w a b p) f = if f = .z then isZeroAt w (a &&& b) else getFlag p f := by
  cases f <;> simp [bitImmediateFlags, getFlag_setFlag]

/-- The flags after a shift or a rotate: c is the bit shifted out, n and z are the new value's. -/
theorem getFlag_shifted (w : Width) (new : Word) (out : Bool) (p : Byte) (f : Flag) :
    getFlag (setNZ w new (setFlag p .c out)) f =
      match f with
      | .n => msbAt w new
      | .z => isZeroAt w new
      | .c => out
      | .v | .m | .x | .d | .i => getFlag p f := by
  cases f <;> simp [getFlag_setNZ, getFlag_setFlag]

/-- A read-modify-write function that leaves m, x, d and i alone: all of them do. -/
def Modify.KeepsModes (f : Modify) : Prop :=
  ∀ (w : Width) (p : Byte) (old : Word) (g : Flag), g = .m ∨ g = .x ∨ g = .d ∨ g = .i →
    getFlag (f w p old).2 g = getFlag p g

theorem aslValue_keepsModes : Modify.KeepsModes aslValue := by
  rintro w p old g (rfl | rfl | rfl | rfl) <;> simp [aslValue, getFlag_shifted]

theorem lsrValue_keepsModes : Modify.KeepsModes lsrValue := by
  rintro w p old g (rfl | rfl | rfl | rfl) <;> simp [lsrValue, getFlag_shifted]

theorem rolValue_keepsModes : Modify.KeepsModes rolValue := by
  rintro w p old g (rfl | rfl | rfl | rfl) <;> simp [rolValue, getFlag_shifted]

theorem rorValue_keepsModes : Modify.KeepsModes rorValue := by
  rintro w p old g (rfl | rfl | rfl | rfl) <;> simp [rorValue, getFlag_shifted]

theorem decValue_keepsModes : Modify.KeepsModes decValue := by
  rintro w p old g (rfl | rfl | rfl | rfl) <;> simp [decValue, getFlag_setNZ]

theorem incValue_keepsModes : Modify.KeepsModes incValue := by
  rintro w p old g (rfl | rfl | rfl | rfl) <;> simp [incValue, getFlag_setNZ]

theorem tsbValue_keepsModes (a : Word) : Modify.KeepsModes (tsbValue a) := by
  rintro w p old g (rfl | rfl | rfl | rfl) <;> simp [tsbValue, getFlag_setFlag]

theorem trbValue_keepsModes (a : Word) : Modify.KeepsModes (trbValue a) := by
  rintro w p old g (rfl | rfl | rfl | rfl) <;> simp [trbValue, getFlag_setFlag]

end Sys2Proof.Machine
end

