-- ==== Sys2Proof/Laws/State.lean ====
section
/-! SUPPORT. What every named operation does to every field of the state: one lemma for each field an operation leaves
alone, and the new value of the fields it writes where that is one expression. Proofs cite these and do not unfold a
record update. -/

namespace Sys2Proof.Machine

/-! State.write -/
@[simp] theorem State.write_c (s : State) (a : Addr) (v : Byte) : (s.write a v).c = s.c := rfl
@[simp] theorem State.write_x (s : State) (a : Addr) (v : Byte) : (s.write a v).x = s.x := rfl
@[simp] theorem State.write_y (s : State) (a : Addr) (v : Byte) : (s.write a v).y = s.y := rfl
@[simp] theorem State.write_sp (s : State) (a : Addr) (v : Byte) : (s.write a v).sp = s.sp := rfl
@[simp] theorem State.write_d (s : State) (a : Addr) (v : Byte) : (s.write a v).d = s.d := rfl
@[simp] theorem State.write_dbr (s : State) (a : Addr) (v : Byte) : (s.write a v).dbr = s.dbr := rfl
@[simp] theorem State.write_pbr (s : State) (a : Addr) (v : Byte) : (s.write a v).pbr = s.pbr := rfl
@[simp] theorem State.write_pc (s : State) (a : Addr) (v : Byte) : (s.write a v).pc = s.pc := rfl
@[simp] theorem State.write_p (s : State) (a : Addr) (v : Byte) : (s.write a v).p = s.p := rfl
@[simp] theorem State.write_e (s : State) (a : Addr) (v : Byte) : (s.write a v).e = s.e := rfl
@[simp] theorem State.write_run (s : State) (a : Addr) (v : Byte) : (s.write a v).run = s.run := rfl
@[simp] theorem State.write_nmiPending (s : State) (a : Addr) (v : Byte) : (s.write a v).nmiPending = s.nmiPending :=
    rfl
@[simp] theorem State.write_abortPending (s : State) (a : Addr) (v : Byte) : (s.write a v).abortPending = s.abortPending :=
    rfl
@[simp] theorem State.write_mem (s : State) (a : Addr) (v : Byte) : (s.write a v).mem = Memory.write s.mem a.toNat v :=
    rfl
@[simp] theorem State.write_inputs (s : State) (a : Addr) (v : Byte) : (s.write a v).inputs = s.inputs := rfl
@[simp] theorem State.write_params (s : State) (a : Addr) (v : Byte) : (s.write a v).params = s.params := rfl

/-! setAcc -/
@[simp] theorem setAcc_c (w : Width) (v : Word) (s : State) : (setAcc w v s).c = mergeAcc w s.c v := rfl
@[simp] theorem setAcc_x (w : Width) (v : Word) (s : State) : (setAcc w v s).x = s.x := rfl
@[simp] theorem setAcc_y (w : Width) (v : Word) (s : State) : (setAcc w v s).y = s.y := rfl
@[simp] theorem setAcc_sp (w : Width) (v : Word) (s : State) : (setAcc w v s).sp = s.sp := rfl
@[simp] theorem setAcc_d (w : Width) (v : Word) (s : State) : (setAcc w v s).d = s.d := rfl
@[simp] theorem setAcc_dbr (w : Width) (v : Word) (s : State) : (setAcc w v s).dbr = s.dbr := rfl
@[simp] theorem setAcc_pbr (w : Width) (v : Word) (s : State) : (setAcc w v s).pbr = s.pbr := rfl
@[simp] theorem setAcc_pc (w : Width) (v : Word) (s : State) : (setAcc w v s).pc = s.pc := rfl
@[simp] theorem setAcc_p (w : Width) (v : Word) (s : State) : (setAcc w v s).p = s.p := rfl
@[simp] theorem setAcc_e (w : Width) (v : Word) (s : State) : (setAcc w v s).e = s.e := rfl
@[simp] theorem setAcc_run (w : Width) (v : Word) (s : State) : (setAcc w v s).run = s.run := rfl
@[simp] theorem setAcc_nmiPending (w : Width) (v : Word) (s : State) : (setAcc w v s).nmiPending = s.nmiPending := rfl
@[simp] theorem setAcc_abortPending (w : Width) (v : Word) (s : State) : (setAcc w v s).abortPending = s.abortPending :=
    rfl
@[simp] theorem setAcc_mem (w : Width) (v : Word) (s : State) : (setAcc w v s).mem = s.mem := rfl
@[simp] theorem setAcc_inputs (w : Width) (v : Word) (s : State) : (setAcc w v s).inputs = s.inputs := rfl
@[simp] theorem setAcc_params (w : Width) (v : Word) (s : State) : (setAcc w v s).params = s.params := rfl

/-! setX -/
@[simp] theorem setX_c (w : Width) (v : Word) (s : State) : (setX w v s).c = s.c := rfl
@[simp] theorem setX_x (w : Width) (v : Word) (s : State) : (setX w v s).x = truncTo w v := rfl
@[simp] theorem setX_y (w : Width) (v : Word) (s : State) : (setX w v s).y = s.y := rfl
@[simp] theorem setX_sp (w : Width) (v : Word) (s : State) : (setX w v s).sp = s.sp := rfl
@[simp] theorem setX_d (w : Width) (v : Word) (s : State) : (setX w v s).d = s.d := rfl
@[simp] theorem setX_dbr (w : Width) (v : Word) (s : State) : (setX w v s).dbr = s.dbr := rfl
@[simp] theorem setX_pbr (w : Width) (v : Word) (s : State) : (setX w v s).pbr = s.pbr := rfl
@[simp] theorem setX_pc (w : Width) (v : Word) (s : State) : (setX w v s).pc = s.pc := rfl
@[simp] theorem setX_p (w : Width) (v : Word) (s : State) : (setX w v s).p = s.p := rfl
@[simp] theorem setX_e (w : Width) (v : Word) (s : State) : (setX w v s).e = s.e := rfl
@[simp] theorem setX_run (w : Width) (v : Word) (s : State) : (setX w v s).run = s.run := rfl
@[simp] theorem setX_nmiPending (w : Width) (v : Word) (s : State) : (setX w v s).nmiPending = s.nmiPending := rfl
@[simp] theorem setX_abortPending (w : Width) (v : Word) (s : State) : (setX w v s).abortPending = s.abortPending :=
    rfl
@[simp] theorem setX_mem (w : Width) (v : Word) (s : State) : (setX w v s).mem = s.mem := rfl
@[simp] theorem setX_inputs (w : Width) (v : Word) (s : State) : (setX w v s).inputs = s.inputs := rfl
@[simp] theorem setX_params (w : Width) (v : Word) (s : State) : (setX w v s).params = s.params := rfl

/-! setY -/
@[simp] theorem setY_c (w : Width) (v : Word) (s : State) : (setY w v s).c = s.c := rfl
@[simp] theorem setY_x (w : Width) (v : Word) (s : State) : (setY w v s).x = s.x := rfl
@[simp] theorem setY_y (w : Width) (v : Word) (s : State) : (setY w v s).y = truncTo w v := rfl
@[simp] theorem setY_sp (w : Width) (v : Word) (s : State) : (setY w v s).sp = s.sp := rfl
@[simp] theorem setY_d (w : Width) (v : Word) (s : State) : (setY w v s).d = s.d := rfl
@[simp] theorem setY_dbr (w : Width) (v : Word) (s : State) : (setY w v s).dbr = s.dbr := rfl
@[simp] theorem setY_pbr (w : Width) (v : Word) (s : State) : (setY w v s).pbr = s.pbr := rfl
@[simp] theorem setY_pc (w : Width) (v : Word) (s : State) : (setY w v s).pc = s.pc := rfl
@[simp] theorem setY_p (w : Width) (v : Word) (s : State) : (setY w v s).p = s.p := rfl
@[simp] theorem setY_e (w : Width) (v : Word) (s : State) : (setY w v s).e = s.e := rfl
@[simp] theorem setY_run (w : Width) (v : Word) (s : State) : (setY w v s).run = s.run := rfl
@[simp] theorem setY_nmiPending (w : Width) (v : Word) (s : State) : (setY w v s).nmiPending = s.nmiPending := rfl
@[simp] theorem setY_abortPending (w : Width) (v : Word) (s : State) : (setY w v s).abortPending = s.abortPending :=
    rfl
@[simp] theorem setY_mem (w : Width) (v : Word) (s : State) : (setY w v s).mem = s.mem := rfl
@[simp] theorem setY_inputs (w : Width) (v : Word) (s : State) : (setY w v s).inputs = s.inputs := rfl
@[simp] theorem setY_params (w : Width) (v : Word) (s : State) : (setY w v s).params = s.params := rfl

/-! setP -/
@[simp] theorem setP_c (p : Byte) (s : State) : (setP p s).c = s.c := rfl
@[simp] theorem setP_x (p : Byte) (s : State) : (setP p s).x = s.x := rfl
@[simp] theorem setP_y (p : Byte) (s : State) : (setP p s).y = s.y := rfl
@[simp] theorem setP_sp (p : Byte) (s : State) : (setP p s).sp = s.sp := rfl
@[simp] theorem setP_d (p : Byte) (s : State) : (setP p s).d = s.d := rfl
@[simp] theorem setP_dbr (p : Byte) (s : State) : (setP p s).dbr = s.dbr := rfl
@[simp] theorem setP_pbr (p : Byte) (s : State) : (setP p s).pbr = s.pbr := rfl
@[simp] theorem setP_pc (p : Byte) (s : State) : (setP p s).pc = s.pc := rfl
@[simp] theorem setP_p (p : Byte) (s : State) : (setP p s).p = p := rfl
@[simp] theorem setP_e (p : Byte) (s : State) : (setP p s).e = s.e := rfl
@[simp] theorem setP_run (p : Byte) (s : State) : (setP p s).run = s.run := rfl
@[simp] theorem setP_nmiPending (p : Byte) (s : State) : (setP p s).nmiPending = s.nmiPending := rfl
@[simp] theorem setP_abortPending (p : Byte) (s : State) : (setP p s).abortPending = s.abortPending := rfl
@[simp] theorem setP_mem (p : Byte) (s : State) : (setP p s).mem = s.mem := rfl
@[simp] theorem setP_inputs (p : Byte) (s : State) : (setP p s).inputs = s.inputs := rfl
@[simp] theorem setP_params (p : Byte) (s : State) : (setP p s).params = s.params := rfl

/-! setFlagOf -/
@[simp] theorem setFlagOf_c (f : Flag) (b : Bool) (s : State) : (setFlagOf f b s).c = s.c := rfl
@[simp] theorem setFlagOf_x (f : Flag) (b : Bool) (s : State) : (setFlagOf f b s).x = s.x := rfl
@[simp] theorem setFlagOf_y (f : Flag) (b : Bool) (s : State) : (setFlagOf f b s).y = s.y := rfl
@[simp] theorem setFlagOf_sp (f : Flag) (b : Bool) (s : State) : (setFlagOf f b s).sp = s.sp := rfl
@[simp] theorem setFlagOf_d (f : Flag) (b : Bool) (s : State) : (setFlagOf f b s).d = s.d := rfl
@[simp] theorem setFlagOf_dbr (f : Flag) (b : Bool) (s : State) : (setFlagOf f b s).dbr = s.dbr := rfl
@[simp] theorem setFlagOf_pbr (f : Flag) (b : Bool) (s : State) : (setFlagOf f b s).pbr = s.pbr := rfl
@[simp] theorem setFlagOf_pc (f : Flag) (b : Bool) (s : State) : (setFlagOf f b s).pc = s.pc := rfl
@[simp] theorem setFlagOf_p (f : Flag) (b : Bool) (s : State) : (setFlagOf f b s).p = setFlag s.p f b := rfl
@[simp] theorem setFlagOf_e (f : Flag) (b : Bool) (s : State) : (setFlagOf f b s).e = s.e := rfl
@[simp] theorem setFlagOf_run (f : Flag) (b : Bool) (s : State) : (setFlagOf f b s).run = s.run := rfl
@[simp] theorem setFlagOf_nmiPending (f : Flag) (b : Bool) (s : State) : (setFlagOf f b s).nmiPending = s.nmiPending :=
    rfl
@[simp] theorem setFlagOf_abortPending (f : Flag) (b : Bool) (s : State) : (setFlagOf f b s).abortPending = s.abortPending :=
    rfl
@[simp] theorem setFlagOf_mem (f : Flag) (b : Bool) (s : State) : (setFlagOf f b s).mem = s.mem := rfl
@[simp] theorem setFlagOf_inputs (f : Flag) (b : Bool) (s : State) : (setFlagOf f b s).inputs = s.inputs := rfl
@[simp] theorem setFlagOf_params (f : Flag) (b : Bool) (s : State) : (setFlagOf f b s).params = s.params := rfl

/-! setNZOf -/
@[simp] theorem setNZOf_c (w : Width) (v : Word) (s : State) : (setNZOf w v s).c = s.c := rfl
@[simp] theorem setNZOf_x (w : Width) (v : Word) (s : State) : (setNZOf w v s).x = s.x := rfl
@[simp] theorem setNZOf_y (w : Width) (v : Word) (s : State) : (setNZOf w v s).y = s.y := rfl
@[simp] theorem setNZOf_sp (w : Width) (v : Word) (s : State) : (setNZOf w v s).sp = s.sp := rfl
@[simp] theorem setNZOf_d (w : Width) (v : Word) (s : State) : (setNZOf w v s).d = s.d := rfl
@[simp] theorem setNZOf_dbr (w : Width) (v : Word) (s : State) : (setNZOf w v s).dbr = s.dbr := rfl
@[simp] theorem setNZOf_pbr (w : Width) (v : Word) (s : State) : (setNZOf w v s).pbr = s.pbr := rfl
@[simp] theorem setNZOf_pc (w : Width) (v : Word) (s : State) : (setNZOf w v s).pc = s.pc := rfl
@[simp] theorem setNZOf_p (w : Width) (v : Word) (s : State) : (setNZOf w v s).p = setNZ w v s.p := rfl
@[simp] theorem setNZOf_e (w : Width) (v : Word) (s : State) : (setNZOf w v s).e = s.e := rfl
@[simp] theorem setNZOf_run (w : Width) (v : Word) (s : State) : (setNZOf w v s).run = s.run := rfl
@[simp] theorem setNZOf_nmiPending (w : Width) (v : Word) (s : State) : (setNZOf w v s).nmiPending = s.nmiPending :=
    rfl
@[simp] theorem setNZOf_abortPending (w : Width) (v : Word) (s : State) : (setNZOf w v s).abortPending = s.abortPending :=
    rfl
@[simp] theorem setNZOf_mem (w : Width) (v : Word) (s : State) : (setNZOf w v s).mem = s.mem := rfl
@[simp] theorem setNZOf_inputs (w : Width) (v : Word) (s : State) : (setNZOf w v s).inputs = s.inputs := rfl
@[simp] theorem setNZOf_params (w : Width) (v : Word) (s : State) : (setNZOf w v s).params = s.params := rfl

/-! advance -/
@[simp] theorem advance_c (len : Nat) (s : State) : (advance len s).c = s.c := rfl
@[simp] theorem advance_x (len : Nat) (s : State) : (advance len s).x = s.x := rfl
@[simp] theorem advance_y (len : Nat) (s : State) : (advance len s).y = s.y := rfl
@[simp] theorem advance_sp (len : Nat) (s : State) : (advance len s).sp = s.sp := rfl
@[simp] theorem advance_d (len : Nat) (s : State) : (advance len s).d = s.d := rfl
@[simp] theorem advance_dbr (len : Nat) (s : State) : (advance len s).dbr = s.dbr := rfl
@[simp] theorem advance_pbr (len : Nat) (s : State) : (advance len s).pbr = s.pbr := rfl
@[simp] theorem advance_pc (len : Nat) (s : State) : (advance len s).pc = s.pc + BitVec.ofNat 16 len := rfl
@[simp] theorem advance_p (len : Nat) (s : State) : (advance len s).p = s.p := rfl
@[simp] theorem advance_e (len : Nat) (s : State) : (advance len s).e = s.e := rfl
@[simp] theorem advance_run (len : Nat) (s : State) : (advance len s).run = s.run := rfl
@[simp] theorem advance_nmiPending (len : Nat) (s : State) : (advance len s).nmiPending = s.nmiPending := rfl
@[simp] theorem advance_abortPending (len : Nat) (s : State) : (advance len s).abortPending = s.abortPending := rfl
@[simp] theorem advance_mem (len : Nat) (s : State) : (advance len s).mem = s.mem := rfl
@[simp] theorem advance_inputs (len : Nat) (s : State) : (advance len s).inputs = s.inputs := rfl
@[simp] theorem advance_params (len : Nat) (s : State) : (advance len s).params = s.params := rfl

/-! clearIndexHigh -/
@[simp] theorem clearIndexHigh_c (s : State) : (clearIndexHigh s).c = s.c := by
  unfold clearIndexHigh; split <;> rfl
@[simp] theorem clearIndexHigh_sp (s : State) : (clearIndexHigh s).sp = s.sp := by
  unfold clearIndexHigh; split <;> rfl
@[simp] theorem clearIndexHigh_d (s : State) : (clearIndexHigh s).d = s.d := by
  unfold clearIndexHigh; split <;> rfl
@[simp] theorem clearIndexHigh_dbr (s : State) : (clearIndexHigh s).dbr = s.dbr := by
  unfold clearIndexHigh; split <;> rfl
@[simp] theorem clearIndexHigh_pbr (s : State) : (clearIndexHigh s).pbr = s.pbr := by
  unfold clearIndexHigh; split <;> rfl
@[simp] theorem clearIndexHigh_pc (s : State) : (clearIndexHigh s).pc = s.pc := by
  unfold clearIndexHigh; split <;> rfl
@[simp] theorem clearIndexHigh_p (s : State) : (clearIndexHigh s).p = s.p := by
  unfold clearIndexHigh; split <;> rfl
@[simp] theorem clearIndexHigh_e (s : State) : (clearIndexHigh s).e = s.e := by
  unfold clearIndexHigh; split <;> rfl
@[simp] theorem clearIndexHigh_run (s : State) : (clearIndexHigh s).run = s.run := by
  unfold clearIndexHigh; split <;> rfl
@[simp] theorem clearIndexHigh_nmiPending (s : State) : (clearIndexHigh s).nmiPending = s.nmiPending := by
  unfold clearIndexHigh; split <;> rfl
@[simp] theorem clearIndexHigh_abortPending (s : State) : (clearIndexHigh s).abortPending = s.abortPending := by
  unfold clearIndexHigh; split <;> rfl
@[simp] theorem clearIndexHigh_mem (s : State) : (clearIndexHigh s).mem = s.mem := by
  unfold clearIndexHigh; split <;> rfl
@[simp] theorem clearIndexHigh_inputs (s : State) : (clearIndexHigh s).inputs = s.inputs := by
  unfold clearIndexHigh; split <;> rfl
@[simp] theorem clearIndexHigh_params (s : State) : (clearIndexHigh s).params = s.params := by
  unfold clearIndexHigh; split <;> rfl

/-! push8 -/
@[simp] theorem push8_c (v : Byte) (s : State) : (push8 v s).c = s.c := rfl
@[simp] theorem push8_x (v : Byte) (s : State) : (push8 v s).x = s.x := rfl
@[simp] theorem push8_y (v : Byte) (s : State) : (push8 v s).y = s.y := rfl
@[simp] theorem push8_sp (v : Byte) (s : State) : (push8 v s).sp = pushPointer s.e s.sp := rfl
@[simp] theorem push8_d (v : Byte) (s : State) : (push8 v s).d = s.d := rfl
@[simp] theorem push8_dbr (v : Byte) (s : State) : (push8 v s).dbr = s.dbr := rfl
@[simp] theorem push8_pbr (v : Byte) (s : State) : (push8 v s).pbr = s.pbr := rfl
@[simp] theorem push8_pc (v : Byte) (s : State) : (push8 v s).pc = s.pc := rfl
@[simp] theorem push8_p (v : Byte) (s : State) : (push8 v s).p = s.p := rfl
@[simp] theorem push8_e (v : Byte) (s : State) : (push8 v s).e = s.e := rfl
@[simp] theorem push8_run (v : Byte) (s : State) : (push8 v s).run = s.run := rfl
@[simp] theorem push8_nmiPending (v : Byte) (s : State) : (push8 v s).nmiPending = s.nmiPending := rfl
@[simp] theorem push8_abortPending (v : Byte) (s : State) : (push8 v s).abortPending = s.abortPending := rfl
@[simp] theorem push8_mem (v : Byte) (s : State) : (push8 v s).mem = Memory.write s.mem (stackAddr s.sp).toNat v :=
    rfl
@[simp] theorem push8_inputs (v : Byte) (s : State) : (push8 v s).inputs = s.inputs := rfl
@[simp] theorem push8_params (v : Byte) (s : State) : (push8 v s).params = s.params := rfl

/-! push16 -/
@[simp] theorem push16_c (v : Word) (s : State) : (push16 v s).c = s.c := rfl
@[simp] theorem push16_x (v : Word) (s : State) : (push16 v s).x = s.x := rfl
@[simp] theorem push16_y (v : Word) (s : State) : (push16 v s).y = s.y := rfl
@[simp] theorem push16_sp (v : Word) (s : State) : (push16 v s).sp = pushPointer s.e (pushPointer s.e s.sp) := rfl
@[simp] theorem push16_d (v : Word) (s : State) : (push16 v s).d = s.d := rfl
@[simp] theorem push16_dbr (v : Word) (s : State) : (push16 v s).dbr = s.dbr := rfl
@[simp] theorem push16_pbr (v : Word) (s : State) : (push16 v s).pbr = s.pbr := rfl
@[simp] theorem push16_pc (v : Word) (s : State) : (push16 v s).pc = s.pc := rfl
@[simp] theorem push16_p (v : Word) (s : State) : (push16 v s).p = s.p := rfl
@[simp] theorem push16_e (v : Word) (s : State) : (push16 v s).e = s.e := rfl
@[simp] theorem push16_run (v : Word) (s : State) : (push16 v s).run = s.run := rfl
@[simp] theorem push16_nmiPending (v : Word) (s : State) : (push16 v s).nmiPending = s.nmiPending := rfl
@[simp] theorem push16_abortPending (v : Word) (s : State) : (push16 v s).abortPending = s.abortPending := rfl
@[simp] theorem push16_inputs (v : Word) (s : State) : (push16 v s).inputs = s.inputs := rfl
@[simp] theorem push16_params (v : Word) (s : State) : (push16 v s).params = s.params := rfl

/-! pushAt -/
@[simp] theorem pushAt_c (w : Width) (v : Word) (s : State) : (pushAt w v s).c = s.c := by cases w <;> rfl
@[simp] theorem pushAt_x (w : Width) (v : Word) (s : State) : (pushAt w v s).x = s.x := by cases w <;> rfl
@[simp] theorem pushAt_y (w : Width) (v : Word) (s : State) : (pushAt w v s).y = s.y := by cases w <;> rfl
@[simp] theorem pushAt_d (w : Width) (v : Word) (s : State) : (pushAt w v s).d = s.d := by cases w <;> rfl
@[simp] theorem pushAt_dbr (w : Width) (v : Word) (s : State) : (pushAt w v s).dbr = s.dbr := by cases w <;> rfl
@[simp] theorem pushAt_pbr (w : Width) (v : Word) (s : State) : (pushAt w v s).pbr = s.pbr := by cases w <;> rfl
@[simp] theorem pushAt_pc (w : Width) (v : Word) (s : State) : (pushAt w v s).pc = s.pc := by cases w <;> rfl
@[simp] theorem pushAt_p (w : Width) (v : Word) (s : State) : (pushAt w v s).p = s.p := by cases w <;> rfl
@[simp] theorem pushAt_e (w : Width) (v : Word) (s : State) : (pushAt w v s).e = s.e := by cases w <;> rfl
@[simp] theorem pushAt_run (w : Width) (v : Word) (s : State) : (pushAt w v s).run = s.run := by cases w <;> rfl
@[simp] theorem pushAt_nmiPending (w : Width) (v : Word) (s : State) : (pushAt w v s).nmiPending = s.nmiPending :=
    by cases w <;> rfl
@[simp] theorem pushAt_abortPending (w : Width) (v : Word) (s : State) : (pushAt w v s).abortPending = s.abortPending :=
    by cases w <;> rfl
@[simp] theorem pushAt_inputs (w : Width) (v : Word) (s : State) : (pushAt w v s).inputs = s.inputs :=
    by cases w <;> rfl
@[simp] theorem pushAt_params (w : Width) (v : Word) (s : State) : (pushAt w v s).params = s.params :=
    by cases w <;> rfl

/-! pull8 -/
@[simp] theorem pull8_c (s : State) : ((pull8 s).2).c = s.c := rfl
@[simp] theorem pull8_x (s : State) : ((pull8 s).2).x = s.x := rfl
@[simp] theorem pull8_y (s : State) : ((pull8 s).2).y = s.y := rfl
@[simp] theorem pull8_sp (s : State) : ((pull8 s).2).sp = pullPointer s.e s.sp := rfl
@[simp] theorem pull8_d (s : State) : ((pull8 s).2).d = s.d := rfl
@[simp] theorem pull8_dbr (s : State) : ((pull8 s).2).dbr = s.dbr := rfl
@[simp] theorem pull8_pbr (s : State) : ((pull8 s).2).pbr = s.pbr := rfl
@[simp] theorem pull8_pc (s : State) : ((pull8 s).2).pc = s.pc := rfl
@[simp] theorem pull8_p (s : State) : ((pull8 s).2).p = s.p := rfl
@[simp] theorem pull8_e (s : State) : ((pull8 s).2).e = s.e := rfl
@[simp] theorem pull8_run (s : State) : ((pull8 s).2).run = s.run := rfl
@[simp] theorem pull8_nmiPending (s : State) : ((pull8 s).2).nmiPending = s.nmiPending := rfl
@[simp] theorem pull8_abortPending (s : State) : ((pull8 s).2).abortPending = s.abortPending := rfl
@[simp] theorem pull8_mem (s : State) : ((pull8 s).2).mem = s.mem := rfl
@[simp] theorem pull8_inputs (s : State) : ((pull8 s).2).inputs = s.inputs := rfl
@[simp] theorem pull8_params (s : State) : ((pull8 s).2).params = s.params := rfl

/-! pull16 -/
@[simp] theorem pull16_c (s : State) : ((pull16 s).2).c = s.c := rfl
@[simp] theorem pull16_x (s : State) : ((pull16 s).2).x = s.x := rfl
@[simp] theorem pull16_y (s : State) : ((pull16 s).2).y = s.y := rfl
@[simp] theorem pull16_sp (s : State) : ((pull16 s).2).sp = pullPointer s.e (pullPointer s.e s.sp) := rfl
@[simp] theorem pull16_d (s : State) : ((pull16 s).2).d = s.d := rfl
@[simp] theorem pull16_dbr (s : State) : ((pull16 s).2).dbr = s.dbr := rfl
@[simp] theorem pull16_pbr (s : State) : ((pull16 s).2).pbr = s.pbr := rfl
@[simp] theorem pull16_pc (s : State) : ((pull16 s).2).pc = s.pc := rfl
@[simp] theorem pull16_p (s : State) : ((pull16 s).2).p = s.p := rfl
@[simp] theorem pull16_e (s : State) : ((pull16 s).2).e = s.e := rfl
@[simp] theorem pull16_run (s : State) : ((pull16 s).2).run = s.run := rfl
@[simp] theorem pull16_nmiPending (s : State) : ((pull16 s).2).nmiPending = s.nmiPending := rfl
@[simp] theorem pull16_abortPending (s : State) : ((pull16 s).2).abortPending = s.abortPending := rfl
@[simp] theorem pull16_mem (s : State) : ((pull16 s).2).mem = s.mem := rfl
@[simp] theorem pull16_inputs (s : State) : ((pull16 s).2).inputs = s.inputs := rfl
@[simp] theorem pull16_params (s : State) : ((pull16 s).2).params = s.params := rfl

/-! pullAt -/
@[simp] theorem pullAt_c (w : Width) (s : State) : ((pullAt w s).2).c = s.c := by cases w <;> rfl
@[simp] theorem pullAt_x (w : Width) (s : State) : ((pullAt w s).2).x = s.x := by cases w <;> rfl
@[simp] theorem pullAt_y (w : Width) (s : State) : ((pullAt w s).2).y = s.y := by cases w <;> rfl
@[simp] theorem pullAt_d (w : Width) (s : State) : ((pullAt w s).2).d = s.d := by cases w <;> rfl
@[simp] theorem pullAt_dbr (w : Width) (s : State) : ((pullAt w s).2).dbr = s.dbr := by cases w <;> rfl
@[simp] theorem pullAt_pbr (w : Width) (s : State) : ((pullAt w s).2).pbr = s.pbr := by cases w <;> rfl
@[simp] theorem pullAt_pc (w : Width) (s : State) : ((pullAt w s).2).pc = s.pc := by cases w <;> rfl
@[simp] theorem pullAt_p (w : Width) (s : State) : ((pullAt w s).2).p = s.p := by cases w <;> rfl
@[simp] theorem pullAt_e (w : Width) (s : State) : ((pullAt w s).2).e = s.e := by cases w <;> rfl
@[simp] theorem pullAt_run (w : Width) (s : State) : ((pullAt w s).2).run = s.run := by cases w <;> rfl
@[simp] theorem pullAt_nmiPending (w : Width) (s : State) : ((pullAt w s).2).nmiPending = s.nmiPending :=
    by cases w <;> rfl
@[simp] theorem pullAt_abortPending (w : Width) (s : State) : ((pullAt w s).2).abortPending = s.abortPending :=
    by cases w <;> rfl
@[simp] theorem pullAt_mem (w : Width) (s : State) : ((pullAt w s).2).mem = s.mem := by cases w <;> rfl
@[simp] theorem pullAt_inputs (w : Width) (s : State) : ((pullAt w s).2).inputs = s.inputs := by cases w <;> rfl
@[simp] theorem pullAt_params (w : Width) (s : State) : ((pullAt w s).2).params = s.params := by cases w <;> rfl

/-! push8n -/
@[simp] theorem push8n_c (v : Byte) (s : State) : (push8n v s).c = s.c := rfl
@[simp] theorem push8n_x (v : Byte) (s : State) : (push8n v s).x = s.x := rfl
@[simp] theorem push8n_y (v : Byte) (s : State) : (push8n v s).y = s.y := rfl
@[simp] theorem push8n_sp (v : Byte) (s : State) : (push8n v s).sp = s.sp - 1 := rfl
@[simp] theorem push8n_d (v : Byte) (s : State) : (push8n v s).d = s.d := rfl
@[simp] theorem push8n_dbr (v : Byte) (s : State) : (push8n v s).dbr = s.dbr := rfl
@[simp] theorem push8n_pbr (v : Byte) (s : State) : (push8n v s).pbr = s.pbr := rfl
@[simp] theorem push8n_pc (v : Byte) (s : State) : (push8n v s).pc = s.pc := rfl
@[simp] theorem push8n_p (v : Byte) (s : State) : (push8n v s).p = s.p := rfl
@[simp] theorem push8n_e (v : Byte) (s : State) : (push8n v s).e = s.e := rfl
@[simp] theorem push8n_run (v : Byte) (s : State) : (push8n v s).run = s.run := rfl
@[simp] theorem push8n_nmiPending (v : Byte) (s : State) : (push8n v s).nmiPending = s.nmiPending := rfl
@[simp] theorem push8n_abortPending (v : Byte) (s : State) : (push8n v s).abortPending = s.abortPending := rfl
@[simp] theorem push8n_mem (v : Byte) (s : State) : (push8n v s).mem = Memory.write s.mem (stackAddr s.sp).toNat v :=
    rfl
@[simp] theorem push8n_inputs (v : Byte) (s : State) : (push8n v s).inputs = s.inputs := rfl
@[simp] theorem push8n_params (v : Byte) (s : State) : (push8n v s).params = s.params := rfl

/-! push16n -/
@[simp] theorem push16n_c (v : Word) (s : State) : (push16n v s).c = s.c := rfl
@[simp] theorem push16n_x (v : Word) (s : State) : (push16n v s).x = s.x := rfl
@[simp] theorem push16n_y (v : Word) (s : State) : (push16n v s).y = s.y := rfl
@[simp] theorem push16n_sp (v : Word) (s : State) : (push16n v s).sp = s.sp - 1 - 1 := rfl
@[simp] theorem push16n_d (v : Word) (s : State) : (push16n v s).d = s.d := rfl
@[simp] theorem push16n_dbr (v : Word) (s : State) : (push16n v s).dbr = s.dbr := rfl
@[simp] theorem push16n_pbr (v : Word) (s : State) : (push16n v s).pbr = s.pbr := rfl
@[simp] theorem push16n_pc (v : Word) (s : State) : (push16n v s).pc = s.pc := rfl
@[simp] theorem push16n_p (v : Word) (s : State) : (push16n v s).p = s.p := rfl
@[simp] theorem push16n_e (v : Word) (s : State) : (push16n v s).e = s.e := rfl
@[simp] theorem push16n_run (v : Word) (s : State) : (push16n v s).run = s.run := rfl
@[simp] theorem push16n_nmiPending (v : Word) (s : State) : (push16n v s).nmiPending = s.nmiPending := rfl
@[simp] theorem push16n_abortPending (v : Word) (s : State) : (push16n v s).abortPending = s.abortPending := rfl
@[simp] theorem push16n_inputs (v : Word) (s : State) : (push16n v s).inputs = s.inputs := rfl
@[simp] theorem push16n_params (v : Word) (s : State) : (push16n v s).params = s.params := rfl

/-! pull8n -/
@[simp] theorem pull8n_c (s : State) : ((pull8n s).2).c = s.c := rfl
@[simp] theorem pull8n_x (s : State) : ((pull8n s).2).x = s.x := rfl
@[simp] theorem pull8n_y (s : State) : ((pull8n s).2).y = s.y := rfl
@[simp] theorem pull8n_sp (s : State) : ((pull8n s).2).sp = s.sp + 1 := rfl
@[simp] theorem pull8n_d (s : State) : ((pull8n s).2).d = s.d := rfl
@[simp] theorem pull8n_dbr (s : State) : ((pull8n s).2).dbr = s.dbr := rfl
@[simp] theorem pull8n_pbr (s : State) : ((pull8n s).2).pbr = s.pbr := rfl
@[simp] theorem pull8n_pc (s : State) : ((pull8n s).2).pc = s.pc := rfl
@[simp] theorem pull8n_p (s : State) : ((pull8n s).2).p = s.p := rfl
@[simp] theorem pull8n_e (s : State) : ((pull8n s).2).e = s.e := rfl
@[simp] theorem pull8n_run (s : State) : ((pull8n s).2).run = s.run := rfl
@[simp] theorem pull8n_nmiPending (s : State) : ((pull8n s).2).nmiPending = s.nmiPending := rfl
@[simp] theorem pull8n_abortPending (s : State) : ((pull8n s).2).abortPending = s.abortPending := rfl
@[simp] theorem pull8n_mem (s : State) : ((pull8n s).2).mem = s.mem := rfl
@[simp] theorem pull8n_inputs (s : State) : ((pull8n s).2).inputs = s.inputs := rfl
@[simp] theorem pull8n_params (s : State) : ((pull8n s).2).params = s.params := rfl

/-! pull16n -/
@[simp] theorem pull16n_c (s : State) : ((pull16n s).2).c = s.c := rfl
@[simp] theorem pull16n_x (s : State) : ((pull16n s).2).x = s.x := rfl
@[simp] theorem pull16n_y (s : State) : ((pull16n s).2).y = s.y := rfl
@[simp] theorem pull16n_sp (s : State) : ((pull16n s).2).sp = s.sp + 1 + 1 := rfl
@[simp] theorem pull16n_d (s : State) : ((pull16n s).2).d = s.d := rfl
@[simp] theorem pull16n_dbr (s : State) : ((pull16n s).2).dbr = s.dbr := rfl
@[simp] theorem pull16n_pbr (s : State) : ((pull16n s).2).pbr = s.pbr := rfl
@[simp] theorem pull16n_pc (s : State) : ((pull16n s).2).pc = s.pc := rfl
@[simp] theorem pull16n_p (s : State) : ((pull16n s).2).p = s.p := rfl
@[simp] theorem pull16n_e (s : State) : ((pull16n s).2).e = s.e := rfl
@[simp] theorem pull16n_run (s : State) : ((pull16n s).2).run = s.run := rfl
@[simp] theorem pull16n_nmiPending (s : State) : ((pull16n s).2).nmiPending = s.nmiPending := rfl
@[simp] theorem pull16n_abortPending (s : State) : ((pull16n s).2).abortPending = s.abortPending := rfl
@[simp] theorem pull16n_mem (s : State) : ((pull16n s).2).mem = s.mem := rfl
@[simp] theorem pull16n_inputs (s : State) : ((pull16n s).2).inputs = s.inputs := rfl
@[simp] theorem pull16n_params (s : State) : ((pull16n s).2).params = s.params := rfl

/-! endStackN -/
@[simp] theorem endStackN_c (s : State) : (endStackN s).c = s.c := by
  unfold endStackN; split <;> rfl
@[simp] theorem endStackN_x (s : State) : (endStackN s).x = s.x := by
  unfold endStackN; split <;> rfl
@[simp] theorem endStackN_y (s : State) : (endStackN s).y = s.y := by
  unfold endStackN; split <;> rfl
@[simp] theorem endStackN_d (s : State) : (endStackN s).d = s.d := by
  unfold endStackN; split <;> rfl
@[simp] theorem endStackN_dbr (s : State) : (endStackN s).dbr = s.dbr := by
  unfold endStackN; split <;> rfl
@[simp] theorem endStackN_pbr (s : State) : (endStackN s).pbr = s.pbr := by
  unfold endStackN; split <;> rfl
@[simp] theorem endStackN_pc (s : State) : (endStackN s).pc = s.pc := by
  unfold endStackN; split <;> rfl
@[simp] theorem endStackN_p (s : State) : (endStackN s).p = s.p := by
  unfold endStackN; split <;> rfl
@[simp] theorem endStackN_e (s : State) : (endStackN s).e = s.e := by
  unfold endStackN; split <;> rfl
@[simp] theorem endStackN_run (s : State) : (endStackN s).run = s.run := by
  unfold endStackN; split <;> rfl
@[simp] theorem endStackN_nmiPending (s : State) : (endStackN s).nmiPending = s.nmiPending := by
  unfold endStackN; split <;> rfl
@[simp] theorem endStackN_abortPending (s : State) : (endStackN s).abortPending = s.abortPending := by
  unfold endStackN; split <;> rfl
@[simp] theorem endStackN_mem (s : State) : (endStackN s).mem = s.mem := by
  unfold endStackN; split <;> rfl
@[simp] theorem endStackN_inputs (s : State) : (endStackN s).inputs = s.inputs := by
  unfold endStackN; split <;> rfl
@[simp] theorem endStackN_params (s : State) : (endStackN s).params = s.params := by
  unfold endStackN; split <;> rfl

/-! clearDbrOnEntry -/
@[simp] theorem clearDbrOnEntry_c (s : State) : (clearDbrOnEntry s).c = s.c := by
  unfold clearDbrOnEntry; split <;> rfl
@[simp] theorem clearDbrOnEntry_x (s : State) : (clearDbrOnEntry s).x = s.x := by
  unfold clearDbrOnEntry; split <;> rfl
@[simp] theorem clearDbrOnEntry_y (s : State) : (clearDbrOnEntry s).y = s.y := by
  unfold clearDbrOnEntry; split <;> rfl
@[simp] theorem clearDbrOnEntry_sp (s : State) : (clearDbrOnEntry s).sp = s.sp := by
  unfold clearDbrOnEntry; split <;> rfl
@[simp] theorem clearDbrOnEntry_d (s : State) : (clearDbrOnEntry s).d = s.d := by
  unfold clearDbrOnEntry; split <;> rfl
@[simp] theorem clearDbrOnEntry_pbr (s : State) : (clearDbrOnEntry s).pbr = s.pbr := by
  unfold clearDbrOnEntry; split <;> rfl
@[simp] theorem clearDbrOnEntry_pc (s : State) : (clearDbrOnEntry s).pc = s.pc := by
  unfold clearDbrOnEntry; split <;> rfl
@[simp] theorem clearDbrOnEntry_p (s : State) : (clearDbrOnEntry s).p = s.p := by
  unfold clearDbrOnEntry; split <;> rfl
@[simp] theorem clearDbrOnEntry_e (s : State) : (clearDbrOnEntry s).e = s.e := by
  unfold clearDbrOnEntry; split <;> rfl
@[simp] theorem clearDbrOnEntry_run (s : State) : (clearDbrOnEntry s).run = s.run := by
  unfold clearDbrOnEntry; split <;> rfl
@[simp] theorem clearDbrOnEntry_nmiPending (s : State) : (clearDbrOnEntry s).nmiPending = s.nmiPending := by
  unfold clearDbrOnEntry; split <;> rfl
@[simp] theorem clearDbrOnEntry_abortPending (s : State) : (clearDbrOnEntry s).abortPending = s.abortPending := by
  unfold clearDbrOnEntry; split <;> rfl
@[simp] theorem clearDbrOnEntry_mem (s : State) : (clearDbrOnEntry s).mem = s.mem := by
  unfold clearDbrOnEntry; split <;> rfl
@[simp] theorem clearDbrOnEntry_inputs (s : State) : (clearDbrOnEntry s).inputs = s.inputs := by
  unfold clearDbrOnEntry; split <;> rfl
@[simp] theorem clearDbrOnEntry_params (s : State) : (clearDbrOnEntry s).params = s.params := by
  unfold clearDbrOnEntry; split <;> rfl

/-! pushFrame -/
@[simp] theorem pushFrame_c (src : Source) (ret : Word) (s : State) : (pushFrame src ret s).c = s.c := by
  cases h : s.e <;> simp [pushFrame, h]
@[simp] theorem pushFrame_x (src : Source) (ret : Word) (s : State) : (pushFrame src ret s).x = s.x := by
  cases h : s.e <;> simp [pushFrame, h]
@[simp] theorem pushFrame_y (src : Source) (ret : Word) (s : State) : (pushFrame src ret s).y = s.y := by
  cases h : s.e <;> simp [pushFrame, h]
@[simp] theorem pushFrame_d (src : Source) (ret : Word) (s : State) : (pushFrame src ret s).d = s.d := by
  cases h : s.e <;> simp [pushFrame, h]
@[simp] theorem pushFrame_dbr (src : Source) (ret : Word) (s : State) : (pushFrame src ret s).dbr = s.dbr := by
  cases h : s.e <;> simp [pushFrame, h]
@[simp] theorem pushFrame_pbr (src : Source) (ret : Word) (s : State) : (pushFrame src ret s).pbr = s.pbr := by
  cases h : s.e <;> simp [pushFrame, h]
@[simp] theorem pushFrame_pc (src : Source) (ret : Word) (s : State) : (pushFrame src ret s).pc = s.pc := by
  cases h : s.e <;> simp [pushFrame, h]
@[simp] theorem pushFrame_p (src : Source) (ret : Word) (s : State) : (pushFrame src ret s).p = s.p := by
  cases h : s.e <;> simp [pushFrame, h]
@[simp] theorem pushFrame_e (src : Source) (ret : Word) (s : State) : (pushFrame src ret s).e = s.e := by
  cases h : s.e <;> simp [pushFrame, h]
@[simp] theorem pushFrame_run (src : Source) (ret : Word) (s : State) : (pushFrame src ret s).run = s.run := by
  cases h : s.e <;> simp [pushFrame, h]
@[simp] theorem pushFrame_nmiPending (src : Source) (ret : Word) (s : State) : (pushFrame src ret s).nmiPending = s.nmiPending :=
    by
  cases h : s.e <;> simp [pushFrame, h]
@[simp] theorem pushFrame_abortPending (src : Source) (ret : Word) (s : State) : (pushFrame src ret s).abortPending = s.abortPending :=
    by
  cases h : s.e <;> simp [pushFrame, h]
@[simp] theorem pushFrame_inputs (src : Source) (ret : Word) (s : State) : (pushFrame src ret s).inputs = s.inputs :=
    by
  cases h : s.e <;> simp [pushFrame, h]
@[simp] theorem pushFrame_params (src : Source) (ret : Word) (s : State) : (pushFrame src ret s).params = s.params :=
    by
  cases h : s.e <;> simp [pushFrame, h]

/-! enterHandler -/
@[simp] theorem enterHandler_c (src : Source) (s : State) : (enterHandler src s).c = s.c := rfl
@[simp] theorem enterHandler_x (src : Source) (s : State) : (enterHandler src s).x = s.x := rfl
@[simp] theorem enterHandler_y (src : Source) (s : State) : (enterHandler src s).y = s.y := rfl
@[simp] theorem enterHandler_sp (src : Source) (s : State) : (enterHandler src s).sp = s.sp := rfl
@[simp] theorem enterHandler_d (src : Source) (s : State) : (enterHandler src s).d = s.d := rfl
@[simp] theorem enterHandler_dbr (src : Source) (s : State) : (enterHandler src s).dbr = s.dbr := rfl
@[simp] theorem enterHandler_pbr (src : Source) (s : State) : (enterHandler src s).pbr = 0x00 := rfl
@[simp] theorem enterHandler_p (src : Source) (s : State) : (enterHandler src s).p = setFlag (setFlag s.p .i true) .d false :=
    rfl
@[simp] theorem enterHandler_e (src : Source) (s : State) : (enterHandler src s).e = s.e := rfl
@[simp] theorem enterHandler_run (src : Source) (s : State) : (enterHandler src s).run = .running := rfl
@[simp] theorem enterHandler_mem (src : Source) (s : State) : (enterHandler src s).mem = s.mem := rfl
@[simp] theorem enterHandler_inputs (src : Source) (s : State) : (enterHandler src s).inputs = s.inputs := rfl
@[simp] theorem enterHandler_params (src : Source) (s : State) : (enterHandler src s).params = s.params := rfl

/-! interruptEntry -/
@[simp] theorem interruptEntry_c (src : Source) (ret : Word) (s : State) : (interruptEntry src ret s).c = s.c := by
  simp [interruptEntry]
@[simp] theorem interruptEntry_x (src : Source) (ret : Word) (s : State) : (interruptEntry src ret s).x = s.x := by
  simp [interruptEntry]
@[simp] theorem interruptEntry_y (src : Source) (ret : Word) (s : State) : (interruptEntry src ret s).y = s.y := by
  simp [interruptEntry]
@[simp] theorem interruptEntry_d (src : Source) (ret : Word) (s : State) : (interruptEntry src ret s).d = s.d := by
  simp [interruptEntry]
@[simp] theorem interruptEntry_e (src : Source) (ret : Word) (s : State) : (interruptEntry src ret s).e = s.e := by
  simp [interruptEntry]
@[simp] theorem interruptEntry_inputs (src : Source) (ret : Word) (s : State) : (interruptEntry src ret s).inputs = s.inputs :=
    by
  simp [interruptEntry]
@[simp] theorem interruptEntry_params (src : Source) (ret : Word) (s : State) : (interruptEntry src ret s).params = s.params :=
    by
  simp [interruptEntry]

/-! loadP -/
@[simp] theorem loadP_c (v : Byte) (s : State) : (loadP v s).c = s.c := by
  unfold loadP; split <;> simp
@[simp] theorem loadP_sp (v : Byte) (s : State) : (loadP v s).sp = s.sp := by
  unfold loadP; split <;> simp
@[simp] theorem loadP_d (v : Byte) (s : State) : (loadP v s).d = s.d := by
  unfold loadP; split <;> simp
@[simp] theorem loadP_dbr (v : Byte) (s : State) : (loadP v s).dbr = s.dbr := by
  unfold loadP; split <;> simp
@[simp] theorem loadP_pbr (v : Byte) (s : State) : (loadP v s).pbr = s.pbr := by
  unfold loadP; split <;> simp
@[simp] theorem loadP_pc (v : Byte) (s : State) : (loadP v s).pc = s.pc := by
  unfold loadP; split <;> simp
@[simp] theorem loadP_e (v : Byte) (s : State) : (loadP v s).e = s.e := by
  unfold loadP; split <;> simp
@[simp] theorem loadP_run (v : Byte) (s : State) : (loadP v s).run = s.run := by
  unfold loadP; split <;> simp
@[simp] theorem loadP_nmiPending (v : Byte) (s : State) : (loadP v s).nmiPending = s.nmiPending := by
  unfold loadP; split <;> simp
@[simp] theorem loadP_abortPending (v : Byte) (s : State) : (loadP v s).abortPending = s.abortPending := by
  unfold loadP; split <;> simp
@[simp] theorem loadP_mem (v : Byte) (s : State) : (loadP v s).mem = s.mem := by
  unfold loadP; split <;> simp
@[simp] theorem loadP_inputs (v : Byte) (s : State) : (loadP v s).inputs = s.inputs := by
  unfold loadP; split <;> simp
@[simp] theorem loadP_params (v : Byte) (s : State) : (loadP v s).params = s.params := by
  unfold loadP; split <;> simp

/-! returnFromInterrupt -/
@[simp] theorem returnFromInterrupt_c (s : State) : (returnFromInterrupt s).c = s.c := by
  unfold returnFromInterrupt; dsimp only; split <;> simp
@[simp] theorem returnFromInterrupt_d (s : State) : (returnFromInterrupt s).d = s.d := by
  unfold returnFromInterrupt; dsimp only; split <;> simp
@[simp] theorem returnFromInterrupt_dbr (s : State) : (returnFromInterrupt s).dbr = s.dbr := by
  unfold returnFromInterrupt; dsimp only; split <;> simp
@[simp] theorem returnFromInterrupt_e (s : State) : (returnFromInterrupt s).e = s.e := by
  unfold returnFromInterrupt; dsimp only; split <;> simp
@[simp] theorem returnFromInterrupt_run (s : State) : (returnFromInterrupt s).run = s.run := by
  unfold returnFromInterrupt; dsimp only; split <;> simp
@[simp] theorem returnFromInterrupt_nmiPending (s : State) : (returnFromInterrupt s).nmiPending = s.nmiPending := by
  unfold returnFromInterrupt; dsimp only; split <;> simp
@[simp] theorem returnFromInterrupt_abortPending (s : State) : (returnFromInterrupt s).abortPending = s.abortPending :=
    by
  unfold returnFromInterrupt; dsimp only; split <;> simp
@[simp] theorem returnFromInterrupt_mem (s : State) : (returnFromInterrupt s).mem = s.mem := by
  unfold returnFromInterrupt; dsimp only; split <;> simp
@[simp] theorem returnFromInterrupt_inputs (s : State) : (returnFromInterrupt s).inputs = s.inputs := by
  unfold returnFromInterrupt; dsimp only; split <;> simp
@[simp] theorem returnFromInterrupt_params (s : State) : (returnFromInterrupt s).params = s.params := by
  unfold returnFromInterrupt; dsimp only; split <;> simp

/-! resetEntry -/
@[simp] theorem resetEntry_c (s : State) : (resetEntry s).c = s.c := rfl
@[simp] theorem resetEntry_mem (s : State) : (resetEntry s).mem = s.mem := rfl
@[simp] theorem resetEntry_inputs (s : State) : (resetEntry s).inputs = s.inputs := rfl
@[simp] theorem resetEntry_params (s : State) : (resetEntry s).params = s.params := rfl

/-! writeData -/
@[simp] theorem writeData_c (ea : EA) (w : Width) (v : Word) (s : State) : (writeData ea w v s).c = s.c :=
    by cases w <;> rfl
@[simp] theorem writeData_x (ea : EA) (w : Width) (v : Word) (s : State) : (writeData ea w v s).x = s.x :=
    by cases w <;> rfl
@[simp] theorem writeData_y (ea : EA) (w : Width) (v : Word) (s : State) : (writeData ea w v s).y = s.y :=
    by cases w <;> rfl
@[simp] theorem writeData_sp (ea : EA) (w : Width) (v : Word) (s : State) : (writeData ea w v s).sp = s.sp :=
    by cases w <;> rfl
@[simp] theorem writeData_d (ea : EA) (w : Width) (v : Word) (s : State) : (writeData ea w v s).d = s.d :=
    by cases w <;> rfl
@[simp] theorem writeData_dbr (ea : EA) (w : Width) (v : Word) (s : State) : (writeData ea w v s).dbr = s.dbr :=
    by cases w <;> rfl
@[simp] theorem writeData_pbr (ea : EA) (w : Width) (v : Word) (s : State) : (writeData ea w v s).pbr = s.pbr :=
    by cases w <;> rfl
@[simp] theorem writeData_pc (ea : EA) (w : Width) (v : Word) (s : State) : (writeData ea w v s).pc = s.pc :=
    by cases w <;> rfl
@[simp] theorem writeData_p (ea : EA) (w : Width) (v : Word) (s : State) : (writeData ea w v s).p = s.p :=
    by cases w <;> rfl
@[simp] theorem writeData_e (ea : EA) (w : Width) (v : Word) (s : State) : (writeData ea w v s).e = s.e :=
    by cases w <;> rfl
@[simp] theorem writeData_run (ea : EA) (w : Width) (v : Word) (s : State) : (writeData ea w v s).run = s.run :=
    by cases w <;> rfl
@[simp] theorem writeData_nmiPending (ea : EA) (w : Width) (v : Word) (s : State) : (writeData ea w v s).nmiPending = s.nmiPending :=
    by cases w <;> rfl
@[simp] theorem writeData_abortPending (ea : EA) (w : Width) (v : Word) (s : State) : (writeData ea w v s).abortPending = s.abortPending :=
    by cases w <;> rfl
@[simp] theorem writeData_inputs (ea : EA) (w : Width) (v : Word) (s : State) : (writeData ea w v s).inputs = s.inputs :=
    by cases w <;> rfl
@[simp] theorem writeData_params (ea : EA) (w : Width) (v : Word) (s : State) : (writeData ea w v s).params = s.params :=
    by cases w <;> rfl

/-! writeBack -/
@[simp] theorem writeBack_c (ea : EA) (w : Width) (v : Word) (s : State) : (writeBack ea w v s).c = s.c :=
    by cases w <;> rfl
@[simp] theorem writeBack_x (ea : EA) (w : Width) (v : Word) (s : State) : (writeBack ea w v s).x = s.x :=
    by cases w <;> rfl
@[simp] theorem writeBack_y (ea : EA) (w : Width) (v : Word) (s : State) : (writeBack ea w v s).y = s.y :=
    by cases w <;> rfl
@[simp] theorem writeBack_sp (ea : EA) (w : Width) (v : Word) (s : State) : (writeBack ea w v s).sp = s.sp :=
    by cases w <;> rfl
@[simp] theorem writeBack_d (ea : EA) (w : Width) (v : Word) (s : State) : (writeBack ea w v s).d = s.d :=
    by cases w <;> rfl
@[simp] theorem writeBack_dbr (ea : EA) (w : Width) (v : Word) (s : State) : (writeBack ea w v s).dbr = s.dbr :=
    by cases w <;> rfl
@[simp] theorem writeBack_pbr (ea : EA) (w : Width) (v : Word) (s : State) : (writeBack ea w v s).pbr = s.pbr :=
    by cases w <;> rfl
@[simp] theorem writeBack_pc (ea : EA) (w : Width) (v : Word) (s : State) : (writeBack ea w v s).pc = s.pc :=
    by cases w <;> rfl
@[simp] theorem writeBack_p (ea : EA) (w : Width) (v : Word) (s : State) : (writeBack ea w v s).p = s.p :=
    by cases w <;> rfl
@[simp] theorem writeBack_e (ea : EA) (w : Width) (v : Word) (s : State) : (writeBack ea w v s).e = s.e :=
    by cases w <;> rfl
@[simp] theorem writeBack_run (ea : EA) (w : Width) (v : Word) (s : State) : (writeBack ea w v s).run = s.run :=
    by cases w <;> rfl
@[simp] theorem writeBack_nmiPending (ea : EA) (w : Width) (v : Word) (s : State) : (writeBack ea w v s).nmiPending = s.nmiPending :=
    by cases w <;> rfl
@[simp] theorem writeBack_abortPending (ea : EA) (w : Width) (v : Word) (s : State) : (writeBack ea w v s).abortPending = s.abortPending :=
    by cases w <;> rfl
@[simp] theorem writeBack_inputs (ea : EA) (w : Width) (v : Word) (s : State) : (writeBack ea w v s).inputs = s.inputs :=
    by cases w <;> rfl
@[simp] theorem writeBack_params (ea : EA) (w : Width) (v : Word) (s : State) : (writeBack ea w v s).params = s.params :=
    by cases w <;> rfl

/-! jumpTo -/
@[simp] theorem jumpTo_c (target : Word) (s : State) : (jumpTo target s).c = s.c := rfl
@[simp] theorem jumpTo_x (target : Word) (s : State) : (jumpTo target s).x = s.x := rfl
@[simp] theorem jumpTo_y (target : Word) (s : State) : (jumpTo target s).y = s.y := rfl
@[simp] theorem jumpTo_sp (target : Word) (s : State) : (jumpTo target s).sp = s.sp := rfl
@[simp] theorem jumpTo_d (target : Word) (s : State) : (jumpTo target s).d = s.d := rfl
@[simp] theorem jumpTo_dbr (target : Word) (s : State) : (jumpTo target s).dbr = s.dbr := rfl
@[simp] theorem jumpTo_pbr (target : Word) (s : State) : (jumpTo target s).pbr = s.pbr := rfl
@[simp] theorem jumpTo_pc (target : Word) (s : State) : (jumpTo target s).pc = target := rfl
@[simp] theorem jumpTo_p (target : Word) (s : State) : (jumpTo target s).p = s.p := rfl
@[simp] theorem jumpTo_e (target : Word) (s : State) : (jumpTo target s).e = s.e := rfl
@[simp] theorem jumpTo_run (target : Word) (s : State) : (jumpTo target s).run = s.run := rfl
@[simp] theorem jumpTo_nmiPending (target : Word) (s : State) : (jumpTo target s).nmiPending = s.nmiPending := rfl
@[simp] theorem jumpTo_abortPending (target : Word) (s : State) : (jumpTo target s).abortPending = s.abortPending :=
    rfl
@[simp] theorem jumpTo_mem (target : Word) (s : State) : (jumpTo target s).mem = s.mem := rfl
@[simp] theorem jumpTo_inputs (target : Word) (s : State) : (jumpTo target s).inputs = s.inputs := rfl
@[simp] theorem jumpTo_params (target : Word) (s : State) : (jumpTo target s).params = s.params := rfl

/-! jumpFar -/
@[simp] theorem jumpFar_c (bank : Byte) (target : Word) (s : State) : (jumpFar bank target s).c = s.c := rfl
@[simp] theorem jumpFar_x (bank : Byte) (target : Word) (s : State) : (jumpFar bank target s).x = s.x := rfl
@[simp] theorem jumpFar_y (bank : Byte) (target : Word) (s : State) : (jumpFar bank target s).y = s.y := rfl
@[simp] theorem jumpFar_sp (bank : Byte) (target : Word) (s : State) : (jumpFar bank target s).sp = s.sp := rfl
@[simp] theorem jumpFar_d (bank : Byte) (target : Word) (s : State) : (jumpFar bank target s).d = s.d := rfl
@[simp] theorem jumpFar_dbr (bank : Byte) (target : Word) (s : State) : (jumpFar bank target s).dbr = s.dbr := rfl
@[simp] theorem jumpFar_pbr (bank : Byte) (target : Word) (s : State) : (jumpFar bank target s).pbr = bank := rfl
@[simp] theorem jumpFar_pc (bank : Byte) (target : Word) (s : State) : (jumpFar bank target s).pc = target := rfl
@[simp] theorem jumpFar_p (bank : Byte) (target : Word) (s : State) : (jumpFar bank target s).p = s.p := rfl
@[simp] theorem jumpFar_e (bank : Byte) (target : Word) (s : State) : (jumpFar bank target s).e = s.e := rfl
@[simp] theorem jumpFar_run (bank : Byte) (target : Word) (s : State) : (jumpFar bank target s).run = s.run := rfl
@[simp] theorem jumpFar_nmiPending (bank : Byte) (target : Word) (s : State) : (jumpFar bank target s).nmiPending = s.nmiPending :=
    rfl
@[simp] theorem jumpFar_abortPending (bank : Byte) (target : Word) (s : State) : (jumpFar bank target s).abortPending = s.abortPending :=
    rfl
@[simp] theorem jumpFar_mem (bank : Byte) (target : Word) (s : State) : (jumpFar bank target s).mem = s.mem := rfl
@[simp] theorem jumpFar_inputs (bank : Byte) (target : Word) (s : State) : (jumpFar bank target s).inputs = s.inputs :=
    rfl
@[simp] theorem jumpFar_params (bank : Byte) (target : Word) (s : State) : (jumpFar bank target s).params = s.params :=
    rfl

/-! forceEmulation -/
@[simp] theorem forceEmulation_c (s : State) : (forceEmulation s).c = s.c := rfl
@[simp] theorem forceEmulation_d (s : State) : (forceEmulation s).d = s.d := rfl
@[simp] theorem forceEmulation_dbr (s : State) : (forceEmulation s).dbr = s.dbr := rfl
@[simp] theorem forceEmulation_pbr (s : State) : (forceEmulation s).pbr = s.pbr := rfl
@[simp] theorem forceEmulation_pc (s : State) : (forceEmulation s).pc = s.pc := rfl
@[simp] theorem forceEmulation_e (s : State) : (forceEmulation s).e = s.e := rfl
@[simp] theorem forceEmulation_run (s : State) : (forceEmulation s).run = s.run := rfl
@[simp] theorem forceEmulation_nmiPending (s : State) : (forceEmulation s).nmiPending = s.nmiPending := rfl
@[simp] theorem forceEmulation_abortPending (s : State) : (forceEmulation s).abortPending = s.abortPending := rfl
@[simp] theorem forceEmulation_mem (s : State) : (forceEmulation s).mem = s.mem := rfl
@[simp] theorem forceEmulation_inputs (s : State) : (forceEmulation s).inputs = s.inputs := rfl
@[simp] theorem forceEmulation_params (s : State) : (forceEmulation s).params = s.params := rfl

/-! exchangeCE -/
@[simp] theorem exchangeCE_c (s : State) : (exchangeCE s).c = s.c := rfl
@[simp] theorem exchangeCE_x (s : State) : (exchangeCE s).x = s.x := rfl
@[simp] theorem exchangeCE_y (s : State) : (exchangeCE s).y = s.y := rfl
@[simp] theorem exchangeCE_sp (s : State) : (exchangeCE s).sp = s.sp := rfl
@[simp] theorem exchangeCE_d (s : State) : (exchangeCE s).d = s.d := rfl
@[simp] theorem exchangeCE_dbr (s : State) : (exchangeCE s).dbr = s.dbr := rfl
@[simp] theorem exchangeCE_pbr (s : State) : (exchangeCE s).pbr = s.pbr := rfl
@[simp] theorem exchangeCE_pc (s : State) : (exchangeCE s).pc = s.pc := rfl
@[simp] theorem exchangeCE_p (s : State) : (exchangeCE s).p = setFlag s.p .c s.e := rfl
@[simp] theorem exchangeCE_e (s : State) : (exchangeCE s).e = getFlag s.p .c := rfl
@[simp] theorem exchangeCE_run (s : State) : (exchangeCE s).run = s.run := rfl
@[simp] theorem exchangeCE_nmiPending (s : State) : (exchangeCE s).nmiPending = s.nmiPending := rfl
@[simp] theorem exchangeCE_abortPending (s : State) : (exchangeCE s).abortPending = s.abortPending := rfl
@[simp] theorem exchangeCE_mem (s : State) : (exchangeCE s).mem = s.mem := rfl
@[simp] theorem exchangeCE_inputs (s : State) : (exchangeCE s).inputs = s.inputs := rfl
@[simp] theorem exchangeCE_params (s : State) : (exchangeCE s).params = s.params := rfl

/-! setMoveBank -/
@[simp] theorem setMoveBank_c (dst : Byte) (s : State) : (setMoveBank dst s).c = s.c := by
  unfold setMoveBank; split <;> rfl
@[simp] theorem setMoveBank_x (dst : Byte) (s : State) : (setMoveBank dst s).x = s.x := by
  unfold setMoveBank; split <;> rfl
@[simp] theorem setMoveBank_y (dst : Byte) (s : State) : (setMoveBank dst s).y = s.y := by
  unfold setMoveBank; split <;> rfl
@[simp] theorem setMoveBank_sp (dst : Byte) (s : State) : (setMoveBank dst s).sp = s.sp := by
  unfold setMoveBank; split <;> rfl
@[simp] theorem setMoveBank_d (dst : Byte) (s : State) : (setMoveBank dst s).d = s.d := by
  unfold setMoveBank; split <;> rfl
@[simp] theorem setMoveBank_pbr (dst : Byte) (s : State) : (setMoveBank dst s).pbr = s.pbr := by
  unfold setMoveBank; split <;> rfl
@[simp] theorem setMoveBank_pc (dst : Byte) (s : State) : (setMoveBank dst s).pc = s.pc := by
  unfold setMoveBank; split <;> rfl
@[simp] theorem setMoveBank_p (dst : Byte) (s : State) : (setMoveBank dst s).p = s.p := by
  unfold setMoveBank; split <;> rfl
@[simp] theorem setMoveBank_e (dst : Byte) (s : State) : (setMoveBank dst s).e = s.e := by
  unfold setMoveBank; split <;> rfl
@[simp] theorem setMoveBank_run (dst : Byte) (s : State) : (setMoveBank dst s).run = s.run := by
  unfold setMoveBank; split <;> rfl
@[simp] theorem setMoveBank_nmiPending (dst : Byte) (s : State) : (setMoveBank dst s).nmiPending = s.nmiPending := by
  unfold setMoveBank; split <;> rfl
@[simp] theorem setMoveBank_abortPending (dst : Byte) (s : State) : (setMoveBank dst s).abortPending = s.abortPending :=
    by
  unfold setMoveBank; split <;> rfl
@[simp] theorem setMoveBank_mem (dst : Byte) (s : State) : (setMoveBank dst s).mem = s.mem := by
  unfold setMoveBank; split <;> rfl
@[simp] theorem setMoveBank_inputs (dst : Byte) (s : State) : (setMoveBank dst s).inputs = s.inputs := by
  unfold setMoveBank; split <;> rfl
@[simp] theorem setMoveBank_params (dst : Byte) (s : State) : (setMoveBank dst s).params = s.params := by
  unfold setMoveBank; split <;> rfl

/-! countMove -/
@[simp] theorem countMove_c (s : State) : (countMove s).c = s.c - 1 := rfl
@[simp] theorem countMove_x (s : State) : (countMove s).x = s.x := rfl
@[simp] theorem countMove_y (s : State) : (countMove s).y = s.y := rfl
@[simp] theorem countMove_sp (s : State) : (countMove s).sp = s.sp := rfl
@[simp] theorem countMove_d (s : State) : (countMove s).d = s.d := rfl
@[simp] theorem countMove_dbr (s : State) : (countMove s).dbr = s.dbr := rfl
@[simp] theorem countMove_pbr (s : State) : (countMove s).pbr = s.pbr := rfl
@[simp] theorem countMove_p (s : State) : (countMove s).p = s.p := rfl
@[simp] theorem countMove_e (s : State) : (countMove s).e = s.e := rfl
@[simp] theorem countMove_run (s : State) : (countMove s).run = s.run := rfl
@[simp] theorem countMove_nmiPending (s : State) : (countMove s).nmiPending = s.nmiPending := rfl
@[simp] theorem countMove_abortPending (s : State) : (countMove s).abortPending = s.abortPending := rfl
@[simp] theorem countMove_mem (s : State) : (countMove s).mem = s.mem := rfl
@[simp] theorem countMove_inputs (s : State) : (countMove s).inputs = s.inputs := rfl
@[simp] theorem countMove_params (s : State) : (countMove s).params = s.params := rfl

/-! latchInputs -/
@[simp] theorem latchInputs_c (s : State) : (latchInputs s).c = s.c := rfl
@[simp] theorem latchInputs_x (s : State) : (latchInputs s).x = s.x := rfl
@[simp] theorem latchInputs_y (s : State) : (latchInputs s).y = s.y := rfl
@[simp] theorem latchInputs_sp (s : State) : (latchInputs s).sp = s.sp := rfl
@[simp] theorem latchInputs_d (s : State) : (latchInputs s).d = s.d := rfl
@[simp] theorem latchInputs_dbr (s : State) : (latchInputs s).dbr = s.dbr := rfl
@[simp] theorem latchInputs_pbr (s : State) : (latchInputs s).pbr = s.pbr := rfl
@[simp] theorem latchInputs_pc (s : State) : (latchInputs s).pc = s.pc := rfl
@[simp] theorem latchInputs_e (s : State) : (latchInputs s).e = s.e := rfl
@[simp] theorem latchInputs_run (s : State) : (latchInputs s).run = s.run := rfl
@[simp] theorem latchInputs_mem (s : State) : (latchInputs s).mem = s.mem := rfl
@[simp] theorem latchInputs_inputs (s : State) : (latchInputs s).inputs = s.inputs.tail := rfl
@[simp] theorem latchInputs_params (s : State) : (latchInputs s).params = s.params := rfl

/-! readyToRun -/
@[simp] theorem readyToRun_c (s : State) : (readyToRun s).c = s.c := rfl
@[simp] theorem readyToRun_x (s : State) : (readyToRun s).x = s.x := rfl
@[simp] theorem readyToRun_y (s : State) : (readyToRun s).y = s.y := rfl
@[simp] theorem readyToRun_sp (s : State) : (readyToRun s).sp = s.sp := rfl
@[simp] theorem readyToRun_d (s : State) : (readyToRun s).d = s.d := rfl
@[simp] theorem readyToRun_dbr (s : State) : (readyToRun s).dbr = s.dbr := rfl
@[simp] theorem readyToRun_pbr (s : State) : (readyToRun s).pbr = s.pbr := rfl
@[simp] theorem readyToRun_pc (s : State) : (readyToRun s).pc = s.pc := rfl
@[simp] theorem readyToRun_p (s : State) : (readyToRun s).p = s.p := rfl
@[simp] theorem readyToRun_e (s : State) : (readyToRun s).e = s.e := rfl
@[simp] theorem readyToRun_mem (s : State) : (readyToRun s).mem = s.mem := rfl
@[simp] theorem readyToRun_params (s : State) : (readyToRun s).params = s.params := rfl

/-! adc -/
@[simp] theorem adc_x (w : Width) (b : Word) (s : State) : (adc w b s).x = s.x := rfl
@[simp] theorem adc_y (w : Width) (b : Word) (s : State) : (adc w b s).y = s.y := rfl
@[simp] theorem adc_sp (w : Width) (b : Word) (s : State) : (adc w b s).sp = s.sp := rfl
@[simp] theorem adc_d (w : Width) (b : Word) (s : State) : (adc w b s).d = s.d := rfl
@[simp] theorem adc_dbr (w : Width) (b : Word) (s : State) : (adc w b s).dbr = s.dbr := rfl
@[simp] theorem adc_pbr (w : Width) (b : Word) (s : State) : (adc w b s).pbr = s.pbr := rfl
@[simp] theorem adc_pc (w : Width) (b : Word) (s : State) : (adc w b s).pc = s.pc := rfl
@[simp] theorem adc_e (w : Width) (b : Word) (s : State) : (adc w b s).e = s.e := rfl
@[simp] theorem adc_run (w : Width) (b : Word) (s : State) : (adc w b s).run = s.run := rfl
@[simp] theorem adc_nmiPending (w : Width) (b : Word) (s : State) : (adc w b s).nmiPending = s.nmiPending := rfl
@[simp] theorem adc_abortPending (w : Width) (b : Word) (s : State) : (adc w b s).abortPending = s.abortPending := rfl
@[simp] theorem adc_mem (w : Width) (b : Word) (s : State) : (adc w b s).mem = s.mem := rfl
@[simp] theorem adc_inputs (w : Width) (b : Word) (s : State) : (adc w b s).inputs = s.inputs := rfl
@[simp] theorem adc_params (w : Width) (b : Word) (s : State) : (adc w b s).params = s.params := rfl

/-! sbc -/
@[simp] theorem sbc_x (w : Width) (b : Word) (s : State) : (sbc w b s).x = s.x := rfl
@[simp] theorem sbc_y (w : Width) (b : Word) (s : State) : (sbc w b s).y = s.y := rfl
@[simp] theorem sbc_sp (w : Width) (b : Word) (s : State) : (sbc w b s).sp = s.sp := rfl
@[simp] theorem sbc_d (w : Width) (b : Word) (s : State) : (sbc w b s).d = s.d := rfl
@[simp] theorem sbc_dbr (w : Width) (b : Word) (s : State) : (sbc w b s).dbr = s.dbr := rfl
@[simp] theorem sbc_pbr (w : Width) (b : Word) (s : State) : (sbc w b s).pbr = s.pbr := rfl
@[simp] theorem sbc_pc (w : Width) (b : Word) (s : State) : (sbc w b s).pc = s.pc := rfl
@[simp] theorem sbc_e (w : Width) (b : Word) (s : State) : (sbc w b s).e = s.e := rfl
@[simp] theorem sbc_run (w : Width) (b : Word) (s : State) : (sbc w b s).run = s.run := rfl
@[simp] theorem sbc_nmiPending (w : Width) (b : Word) (s : State) : (sbc w b s).nmiPending = s.nmiPending := rfl
@[simp] theorem sbc_abortPending (w : Width) (b : Word) (s : State) : (sbc w b s).abortPending = s.abortPending := rfl
@[simp] theorem sbc_mem (w : Width) (b : Word) (s : State) : (sbc w b s).mem = s.mem := rfl
@[simp] theorem sbc_inputs (w : Width) (b : Word) (s : State) : (sbc w b s).inputs = s.inputs := rfl
@[simp] theorem sbc_params (w : Width) (b : Word) (s : State) : (sbc w b s).params = s.params := rfl

/-! cmp -/
@[simp] theorem cmp_c (w : Width) (b : Word) (s : State) : (cmp w b s).c = s.c := rfl
@[simp] theorem cmp_x (w : Width) (b : Word) (s : State) : (cmp w b s).x = s.x := rfl
@[simp] theorem cmp_y (w : Width) (b : Word) (s : State) : (cmp w b s).y = s.y := rfl
@[simp] theorem cmp_sp (w : Width) (b : Word) (s : State) : (cmp w b s).sp = s.sp := rfl
@[simp] theorem cmp_d (w : Width) (b : Word) (s : State) : (cmp w b s).d = s.d := rfl
@[simp] theorem cmp_dbr (w : Width) (b : Word) (s : State) : (cmp w b s).dbr = s.dbr := rfl
@[simp] theorem cmp_pbr (w : Width) (b : Word) (s : State) : (cmp w b s).pbr = s.pbr := rfl
@[simp] theorem cmp_pc (w : Width) (b : Word) (s : State) : (cmp w b s).pc = s.pc := rfl
@[simp] theorem cmp_e (w : Width) (b : Word) (s : State) : (cmp w b s).e = s.e := rfl
@[simp] theorem cmp_run (w : Width) (b : Word) (s : State) : (cmp w b s).run = s.run := rfl
@[simp] theorem cmp_nmiPending (w : Width) (b : Word) (s : State) : (cmp w b s).nmiPending = s.nmiPending := rfl
@[simp] theorem cmp_abortPending (w : Width) (b : Word) (s : State) : (cmp w b s).abortPending = s.abortPending := rfl
@[simp] theorem cmp_mem (w : Width) (b : Word) (s : State) : (cmp w b s).mem = s.mem := rfl
@[simp] theorem cmp_inputs (w : Width) (b : Word) (s : State) : (cmp w b s).inputs = s.inputs := rfl
@[simp] theorem cmp_params (w : Width) (b : Word) (s : State) : (cmp w b s).params = s.params := rfl

/-! cpx -/
@[simp] theorem cpx_c (w : Width) (b : Word) (s : State) : (cpx w b s).c = s.c := rfl
@[simp] theorem cpx_x (w : Width) (b : Word) (s : State) : (cpx w b s).x = s.x := rfl
@[simp] theorem cpx_y (w : Width) (b : Word) (s : State) : (cpx w b s).y = s.y := rfl
@[simp] theorem cpx_sp (w : Width) (b : Word) (s : State) : (cpx w b s).sp = s.sp := rfl
@[simp] theorem cpx_d (w : Width) (b : Word) (s : State) : (cpx w b s).d = s.d := rfl
@[simp] theorem cpx_dbr (w : Width) (b : Word) (s : State) : (cpx w b s).dbr = s.dbr := rfl
@[simp] theorem cpx_pbr (w : Width) (b : Word) (s : State) : (cpx w b s).pbr = s.pbr := rfl
@[simp] theorem cpx_pc (w : Width) (b : Word) (s : State) : (cpx w b s).pc = s.pc := rfl
@[simp] theorem cpx_e (w : Width) (b : Word) (s : State) : (cpx w b s).e = s.e := rfl
@[simp] theorem cpx_run (w : Width) (b : Word) (s : State) : (cpx w b s).run = s.run := rfl
@[simp] theorem cpx_nmiPending (w : Width) (b : Word) (s : State) : (cpx w b s).nmiPending = s.nmiPending := rfl
@[simp] theorem cpx_abortPending (w : Width) (b : Word) (s : State) : (cpx w b s).abortPending = s.abortPending := rfl
@[simp] theorem cpx_mem (w : Width) (b : Word) (s : State) : (cpx w b s).mem = s.mem := rfl
@[simp] theorem cpx_inputs (w : Width) (b : Word) (s : State) : (cpx w b s).inputs = s.inputs := rfl
@[simp] theorem cpx_params (w : Width) (b : Word) (s : State) : (cpx w b s).params = s.params := rfl

/-! cpy -/
@[simp] theorem cpy_c (w : Width) (b : Word) (s : State) : (cpy w b s).c = s.c := rfl
@[simp] theorem cpy_x (w : Width) (b : Word) (s : State) : (cpy w b s).x = s.x := rfl
@[simp] theorem cpy_y (w : Width) (b : Word) (s : State) : (cpy w b s).y = s.y := rfl
@[simp] theorem cpy_sp (w : Width) (b : Word) (s : State) : (cpy w b s).sp = s.sp := rfl
@[simp] theorem cpy_d (w : Width) (b : Word) (s : State) : (cpy w b s).d = s.d := rfl
@[simp] theorem cpy_dbr (w : Width) (b : Word) (s : State) : (cpy w b s).dbr = s.dbr := rfl
@[simp] theorem cpy_pbr (w : Width) (b : Word) (s : State) : (cpy w b s).pbr = s.pbr := rfl
@[simp] theorem cpy_pc (w : Width) (b : Word) (s : State) : (cpy w b s).pc = s.pc := rfl
@[simp] theorem cpy_e (w : Width) (b : Word) (s : State) : (cpy w b s).e = s.e := rfl
@[simp] theorem cpy_run (w : Width) (b : Word) (s : State) : (cpy w b s).run = s.run := rfl
@[simp] theorem cpy_nmiPending (w : Width) (b : Word) (s : State) : (cpy w b s).nmiPending = s.nmiPending := rfl
@[simp] theorem cpy_abortPending (w : Width) (b : Word) (s : State) : (cpy w b s).abortPending = s.abortPending := rfl
@[simp] theorem cpy_mem (w : Width) (b : Word) (s : State) : (cpy w b s).mem = s.mem := rfl
@[simp] theorem cpy_inputs (w : Width) (b : Word) (s : State) : (cpy w b s).inputs = s.inputs := rfl
@[simp] theorem cpy_params (w : Width) (b : Word) (s : State) : (cpy w b s).params = s.params := rfl

/-! andAcc -/
@[simp] theorem andAcc_x (w : Width) (b : Word) (s : State) : (andAcc w b s).x = s.x := rfl
@[simp] theorem andAcc_y (w : Width) (b : Word) (s : State) : (andAcc w b s).y = s.y := rfl
@[simp] theorem andAcc_sp (w : Width) (b : Word) (s : State) : (andAcc w b s).sp = s.sp := rfl
@[simp] theorem andAcc_d (w : Width) (b : Word) (s : State) : (andAcc w b s).d = s.d := rfl
@[simp] theorem andAcc_dbr (w : Width) (b : Word) (s : State) : (andAcc w b s).dbr = s.dbr := rfl
@[simp] theorem andAcc_pbr (w : Width) (b : Word) (s : State) : (andAcc w b s).pbr = s.pbr := rfl
@[simp] theorem andAcc_pc (w : Width) (b : Word) (s : State) : (andAcc w b s).pc = s.pc := rfl
@[simp] theorem andAcc_e (w : Width) (b : Word) (s : State) : (andAcc w b s).e = s.e := rfl
@[simp] theorem andAcc_run (w : Width) (b : Word) (s : State) : (andAcc w b s).run = s.run := rfl
@[simp] theorem andAcc_nmiPending (w : Width) (b : Word) (s : State) : (andAcc w b s).nmiPending = s.nmiPending := rfl
@[simp] theorem andAcc_abortPending (w : Width) (b : Word) (s : State) : (andAcc w b s).abortPending = s.abortPending :=
    rfl
@[simp] theorem andAcc_mem (w : Width) (b : Word) (s : State) : (andAcc w b s).mem = s.mem := rfl
@[simp] theorem andAcc_inputs (w : Width) (b : Word) (s : State) : (andAcc w b s).inputs = s.inputs := rfl
@[simp] theorem andAcc_params (w : Width) (b : Word) (s : State) : (andAcc w b s).params = s.params := rfl

/-! eorAcc -/
@[simp] theorem eorAcc_x (w : Width) (b : Word) (s : State) : (eorAcc w b s).x = s.x := rfl
@[simp] theorem eorAcc_y (w : Width) (b : Word) (s : State) : (eorAcc w b s).y = s.y := rfl
@[simp] theorem eorAcc_sp (w : Width) (b : Word) (s : State) : (eorAcc w b s).sp = s.sp := rfl
@[simp] theorem eorAcc_d (w : Width) (b : Word) (s : State) : (eorAcc w b s).d = s.d := rfl
@[simp] theorem eorAcc_dbr (w : Width) (b : Word) (s : State) : (eorAcc w b s).dbr = s.dbr := rfl
@[simp] theorem eorAcc_pbr (w : Width) (b : Word) (s : State) : (eorAcc w b s).pbr = s.pbr := rfl
@[simp] theorem eorAcc_pc (w : Width) (b : Word) (s : State) : (eorAcc w b s).pc = s.pc := rfl
@[simp] theorem eorAcc_e (w : Width) (b : Word) (s : State) : (eorAcc w b s).e = s.e := rfl
@[simp] theorem eorAcc_run (w : Width) (b : Word) (s : State) : (eorAcc w b s).run = s.run := rfl
@[simp] theorem eorAcc_nmiPending (w : Width) (b : Word) (s : State) : (eorAcc w b s).nmiPending = s.nmiPending := rfl
@[simp] theorem eorAcc_abortPending (w : Width) (b : Word) (s : State) : (eorAcc w b s).abortPending = s.abortPending :=
    rfl
@[simp] theorem eorAcc_mem (w : Width) (b : Word) (s : State) : (eorAcc w b s).mem = s.mem := rfl
@[simp] theorem eorAcc_inputs (w : Width) (b : Word) (s : State) : (eorAcc w b s).inputs = s.inputs := rfl
@[simp] theorem eorAcc_params (w : Width) (b : Word) (s : State) : (eorAcc w b s).params = s.params := rfl

/-! oraAcc -/
@[simp] theorem oraAcc_x (w : Width) (b : Word) (s : State) : (oraAcc w b s).x = s.x := rfl
@[simp] theorem oraAcc_y (w : Width) (b : Word) (s : State) : (oraAcc w b s).y = s.y := rfl
@[simp] theorem oraAcc_sp (w : Width) (b : Word) (s : State) : (oraAcc w b s).sp = s.sp := rfl
@[simp] theorem oraAcc_d (w : Width) (b : Word) (s : State) : (oraAcc w b s).d = s.d := rfl
@[simp] theorem oraAcc_dbr (w : Width) (b : Word) (s : State) : (oraAcc w b s).dbr = s.dbr := rfl
@[simp] theorem oraAcc_pbr (w : Width) (b : Word) (s : State) : (oraAcc w b s).pbr = s.pbr := rfl
@[simp] theorem oraAcc_pc (w : Width) (b : Word) (s : State) : (oraAcc w b s).pc = s.pc := rfl
@[simp] theorem oraAcc_e (w : Width) (b : Word) (s : State) : (oraAcc w b s).e = s.e := rfl
@[simp] theorem oraAcc_run (w : Width) (b : Word) (s : State) : (oraAcc w b s).run = s.run := rfl
@[simp] theorem oraAcc_nmiPending (w : Width) (b : Word) (s : State) : (oraAcc w b s).nmiPending = s.nmiPending := rfl
@[simp] theorem oraAcc_abortPending (w : Width) (b : Word) (s : State) : (oraAcc w b s).abortPending = s.abortPending :=
    rfl
@[simp] theorem oraAcc_mem (w : Width) (b : Word) (s : State) : (oraAcc w b s).mem = s.mem := rfl
@[simp] theorem oraAcc_inputs (w : Width) (b : Word) (s : State) : (oraAcc w b s).inputs = s.inputs := rfl
@[simp] theorem oraAcc_params (w : Width) (b : Word) (s : State) : (oraAcc w b s).params = s.params := rfl

/-! bitMemory -/
@[simp] theorem bitMemory_c (w : Width) (b : Word) (s : State) : (bitMemory w b s).c = s.c := rfl
@[simp] theorem bitMemory_x (w : Width) (b : Word) (s : State) : (bitMemory w b s).x = s.x := rfl
@[simp] theorem bitMemory_y (w : Width) (b : Word) (s : State) : (bitMemory w b s).y = s.y := rfl
@[simp] theorem bitMemory_sp (w : Width) (b : Word) (s : State) : (bitMemory w b s).sp = s.sp := rfl
@[simp] theorem bitMemory_d (w : Width) (b : Word) (s : State) : (bitMemory w b s).d = s.d := rfl
@[simp] theorem bitMemory_dbr (w : Width) (b : Word) (s : State) : (bitMemory w b s).dbr = s.dbr := rfl
@[simp] theorem bitMemory_pbr (w : Width) (b : Word) (s : State) : (bitMemory w b s).pbr = s.pbr := rfl
@[simp] theorem bitMemory_pc (w : Width) (b : Word) (s : State) : (bitMemory w b s).pc = s.pc := rfl
@[simp] theorem bitMemory_e (w : Width) (b : Word) (s : State) : (bitMemory w b s).e = s.e := rfl
@[simp] theorem bitMemory_run (w : Width) (b : Word) (s : State) : (bitMemory w b s).run = s.run := rfl
@[simp] theorem bitMemory_nmiPending (w : Width) (b : Word) (s : State) : (bitMemory w b s).nmiPending = s.nmiPending :=
    rfl
@[simp] theorem bitMemory_abortPending (w : Width) (b : Word) (s : State) : (bitMemory w b s).abortPending = s.abortPending :=
    rfl
@[simp] theorem bitMemory_mem (w : Width) (b : Word) (s : State) : (bitMemory w b s).mem = s.mem := rfl
@[simp] theorem bitMemory_inputs (w : Width) (b : Word) (s : State) : (bitMemory w b s).inputs = s.inputs := rfl
@[simp] theorem bitMemory_params (w : Width) (b : Word) (s : State) : (bitMemory w b s).params = s.params := rfl

/-! bitImmediate -/
@[simp] theorem bitImmediate_c (w : Width) (b : Word) (s : State) : (bitImmediate w b s).c = s.c := rfl
@[simp] theorem bitImmediate_x (w : Width) (b : Word) (s : State) : (bitImmediate w b s).x = s.x := rfl
@[simp] theorem bitImmediate_y (w : Width) (b : Word) (s : State) : (bitImmediate w b s).y = s.y := rfl
@[simp] theorem bitImmediate_sp (w : Width) (b : Word) (s : State) : (bitImmediate w b s).sp = s.sp := rfl
@[simp] theorem bitImmediate_d (w : Width) (b : Word) (s : State) : (bitImmediate w b s).d = s.d := rfl
@[simp] theorem bitImmediate_dbr (w : Width) (b : Word) (s : State) : (bitImmediate w b s).dbr = s.dbr := rfl
@[simp] theorem bitImmediate_pbr (w : Width) (b : Word) (s : State) : (bitImmediate w b s).pbr = s.pbr := rfl
@[simp] theorem bitImmediate_pc (w : Width) (b : Word) (s : State) : (bitImmediate w b s).pc = s.pc := rfl
@[simp] theorem bitImmediate_e (w : Width) (b : Word) (s : State) : (bitImmediate w b s).e = s.e := rfl
@[simp] theorem bitImmediate_run (w : Width) (b : Word) (s : State) : (bitImmediate w b s).run = s.run := rfl
@[simp] theorem bitImmediate_nmiPending (w : Width) (b : Word) (s : State) : (bitImmediate w b s).nmiPending = s.nmiPending :=
    rfl
@[simp] theorem bitImmediate_abortPending (w : Width) (b : Word) (s : State) : (bitImmediate w b s).abortPending = s.abortPending :=
    rfl
@[simp] theorem bitImmediate_mem (w : Width) (b : Word) (s : State) : (bitImmediate w b s).mem = s.mem := rfl
@[simp] theorem bitImmediate_inputs (w : Width) (b : Word) (s : State) : (bitImmediate w b s).inputs = s.inputs := rfl
@[simp] theorem bitImmediate_params (w : Width) (b : Word) (s : State) : (bitImmediate w b s).params = s.params := rfl

/-! lda -/
@[simp] theorem lda_x (w : Width) (b : Word) (s : State) : (lda w b s).x = s.x := rfl
@[simp] theorem lda_y (w : Width) (b : Word) (s : State) : (lda w b s).y = s.y := rfl
@[simp] theorem lda_sp (w : Width) (b : Word) (s : State) : (lda w b s).sp = s.sp := rfl
@[simp] theorem lda_d (w : Width) (b : Word) (s : State) : (lda w b s).d = s.d := rfl
@[simp] theorem lda_dbr (w : Width) (b : Word) (s : State) : (lda w b s).dbr = s.dbr := rfl
@[simp] theorem lda_pbr (w : Width) (b : Word) (s : State) : (lda w b s).pbr = s.pbr := rfl
@[simp] theorem lda_pc (w : Width) (b : Word) (s : State) : (lda w b s).pc = s.pc := rfl
@[simp] theorem lda_e (w : Width) (b : Word) (s : State) : (lda w b s).e = s.e := rfl
@[simp] theorem lda_run (w : Width) (b : Word) (s : State) : (lda w b s).run = s.run := rfl
@[simp] theorem lda_nmiPending (w : Width) (b : Word) (s : State) : (lda w b s).nmiPending = s.nmiPending := rfl
@[simp] theorem lda_abortPending (w : Width) (b : Word) (s : State) : (lda w b s).abortPending = s.abortPending := rfl
@[simp] theorem lda_mem (w : Width) (b : Word) (s : State) : (lda w b s).mem = s.mem := rfl
@[simp] theorem lda_inputs (w : Width) (b : Word) (s : State) : (lda w b s).inputs = s.inputs := rfl
@[simp] theorem lda_params (w : Width) (b : Word) (s : State) : (lda w b s).params = s.params := rfl

/-! ldx -/
@[simp] theorem ldx_c (w : Width) (b : Word) (s : State) : (ldx w b s).c = s.c := rfl
@[simp] theorem ldx_y (w : Width) (b : Word) (s : State) : (ldx w b s).y = s.y := rfl
@[simp] theorem ldx_sp (w : Width) (b : Word) (s : State) : (ldx w b s).sp = s.sp := rfl
@[simp] theorem ldx_d (w : Width) (b : Word) (s : State) : (ldx w b s).d = s.d := rfl
@[simp] theorem ldx_dbr (w : Width) (b : Word) (s : State) : (ldx w b s).dbr = s.dbr := rfl
@[simp] theorem ldx_pbr (w : Width) (b : Word) (s : State) : (ldx w b s).pbr = s.pbr := rfl
@[simp] theorem ldx_pc (w : Width) (b : Word) (s : State) : (ldx w b s).pc = s.pc := rfl
@[simp] theorem ldx_e (w : Width) (b : Word) (s : State) : (ldx w b s).e = s.e := rfl
@[simp] theorem ldx_run (w : Width) (b : Word) (s : State) : (ldx w b s).run = s.run := rfl
@[simp] theorem ldx_nmiPending (w : Width) (b : Word) (s : State) : (ldx w b s).nmiPending = s.nmiPending := rfl
@[simp] theorem ldx_abortPending (w : Width) (b : Word) (s : State) : (ldx w b s).abortPending = s.abortPending := rfl
@[simp] theorem ldx_mem (w : Width) (b : Word) (s : State) : (ldx w b s).mem = s.mem := rfl
@[simp] theorem ldx_inputs (w : Width) (b : Word) (s : State) : (ldx w b s).inputs = s.inputs := rfl
@[simp] theorem ldx_params (w : Width) (b : Word) (s : State) : (ldx w b s).params = s.params := rfl

/-! ldy -/
@[simp] theorem ldy_c (w : Width) (b : Word) (s : State) : (ldy w b s).c = s.c := rfl
@[simp] theorem ldy_x (w : Width) (b : Word) (s : State) : (ldy w b s).x = s.x := rfl
@[simp] theorem ldy_sp (w : Width) (b : Word) (s : State) : (ldy w b s).sp = s.sp := rfl
@[simp] theorem ldy_d (w : Width) (b : Word) (s : State) : (ldy w b s).d = s.d := rfl
@[simp] theorem ldy_dbr (w : Width) (b : Word) (s : State) : (ldy w b s).dbr = s.dbr := rfl
@[simp] theorem ldy_pbr (w : Width) (b : Word) (s : State) : (ldy w b s).pbr = s.pbr := rfl
@[simp] theorem ldy_pc (w : Width) (b : Word) (s : State) : (ldy w b s).pc = s.pc := rfl
@[simp] theorem ldy_e (w : Width) (b : Word) (s : State) : (ldy w b s).e = s.e := rfl
@[simp] theorem ldy_run (w : Width) (b : Word) (s : State) : (ldy w b s).run = s.run := rfl
@[simp] theorem ldy_nmiPending (w : Width) (b : Word) (s : State) : (ldy w b s).nmiPending = s.nmiPending := rfl
@[simp] theorem ldy_abortPending (w : Width) (b : Word) (s : State) : (ldy w b s).abortPending = s.abortPending := rfl
@[simp] theorem ldy_mem (w : Width) (b : Word) (s : State) : (ldy w b s).mem = s.mem := rfl
@[simp] theorem ldy_inputs (w : Width) (b : Word) (s : State) : (ldy w b s).inputs = s.inputs := rfl
@[simp] theorem ldy_params (w : Width) (b : Word) (s : State) : (ldy w b s).params = s.params := rfl

/-! The fields written under a condition -/
theorem clearIndexHigh_x (s : State) :
    (clearIndexHigh s).x = if getFlag s.p .x then extendByte (lowByte s.x) else s.x := by
  unfold clearIndexHigh; split <;> rfl
theorem clearIndexHigh_y (s : State) :
    (clearIndexHigh s).y = if getFlag s.p .x then extendByte (lowByte s.y) else s.y := by
  unfold clearIndexHigh; split <;> rfl
theorem clearDbrOnEntry_dbr (s : State) :
    (clearDbrOnEntry s).dbr = if s.e && s.params.emuIntClearsDbr then 0x00 else s.dbr := by
  unfold clearDbrOnEntry; split <;> rfl
theorem setMoveBank_dbr (dst : Byte) (s : State) :
    (setMoveBank dst s).dbr = if s.params.blockMoveSetsDbr then dst else s.dbr := by
  unfold setMoveBank; split <;> rfl
theorem pushFrame_sp (src : Source) (ret : Word) (s : State) :
    (pushFrame src ret s).sp =
      if s.e then pushPointer s.e (pushPointer s.e (pushPointer s.e s.sp))
      else pushPointer s.e (pushPointer s.e (pushPointer s.e (pushPointer s.e s.sp))) := by
  cases h : s.e <;> simp [pushFrame, h]
theorem interruptEntry_sp (src : Source) (ret : Word) (s : State) :
    (interruptEntry src ret s).sp = (pushFrame src ret s).sp := by simp [interruptEntry, enterHandler]
theorem interruptEntry_dbr (src : Source) (ret : Word) (s : State) :
    (interruptEntry src ret s).dbr = if s.e && s.params.emuIntClearsDbr then 0x00 else s.dbr := by
  simp [interruptEntry, enterHandler, clearDbrOnEntry_dbr]
theorem interruptEntry_mem (src : Source) (ret : Word) (s : State) :
    (interruptEntry src ret s).mem = (pushFrame src ret s).mem := by simp [interruptEntry, enterHandler]
@[simp] theorem interruptEntry_p (src : Source) (ret : Word) (s : State) :
    (interruptEntry src ret s).p = setFlag (setFlag s.p .i true) .d false := by simp [interruptEntry]
@[simp] theorem interruptEntry_pbr (src : Source) (ret : Word) (s : State) :
    (interruptEntry src ret s).pbr = 0x00 := rfl
@[simp] theorem interruptEntry_run (src : Source) (ret : Word) (s : State) :
    (interruptEntry src ret s).run = .running := rfl
theorem interruptEntry_nmiPending (src : Source) (ret : Word) (s : State) :
    (interruptEntry src ret s).nmiPending = if src = .nmi then false else s.nmiPending := by
  simp [interruptEntry, enterHandler]
theorem interruptEntry_abortPending (src : Source) (ret : Word) (s : State) :
    (interruptEntry src ret s).abortPending = if src = .abort then false else s.abortPending := by
  simp [interruptEntry, enterHandler]

end Sys2Proof.Machine
end

