-- ==== Sys2Proof/Laws/Memory.lean ====
section
/-! SUPPORT. Memory: what a read returns after a write, that every operation keeps the canonical form, and that two
canonical memories that read alike are equal. -/

namespace Sys2Proof.Machine

theorem Memory.read_erase (mem : Memory) (a b : Nat) :
    Memory.read (Memory.erase mem a) b = if b = a then Config.unlistedByte else Memory.read mem b := by
  induction mem with
  | nil => simp [Memory.erase, Memory.read]
  | cons cell rest ih =>
    obtain ⟨c, v⟩ := cell
    by_cases h : c = a
    · subst h
      by_cases hb : b = c
      · rw [if_pos hb] at ih ⊢
        simpa [Memory.erase] using ih
      · rw [if_neg hb] at ih ⊢
        simpa [Memory.erase, Memory.read, Ne.symm hb] using ih
    · by_cases hb : c = b
      · subst hb; simp [Memory.erase, Memory.read, h]
      · simp [Memory.erase, Memory.read, h, hb, ih]

theorem Memory.read_insert_of_ne (mem : Memory) (a b : Nat) (v : Byte) (h : b ≠ a) :
    Memory.read (Memory.insert mem a v) b = Memory.read mem b := by
  induction mem with
  | nil => simp [Memory.insert, Memory.read, Ne.symm h]
  | cons cell rest ih =>
    obtain ⟨c, u⟩ := cell
    by_cases hc : a < c
    · simp [Memory.insert, Memory.read, hc, Ne.symm h]
    · simp only [Memory.insert, hc, if_false, Memory.read, ih]

theorem Memory.read_insert_erase (mem : Memory) (a : Nat) (v : Byte) :
    Memory.read (Memory.insert (Memory.erase mem a) a v) a = v := by
  induction mem with
  | nil => simp [Memory.erase, Memory.insert, Memory.read]
  | cons cell rest ih =>
    obtain ⟨c, u⟩ := cell
    by_cases hc : c = a
    · simp [Memory.erase, hc, ih]
    · by_cases hl : a < c <;> simp [Memory.erase, Memory.insert, Memory.read, hc, hl, ih]

/-- A read after a write, for every list. -/
theorem Memory.read_write (mem : Memory) (a b : Nat) (v : Byte) :
    Memory.read (Memory.write mem a v) b = if b = a then v else Memory.read mem b := by
  unfold Memory.write
  by_cases hv : v = Config.unlistedByte
  · simp only [hv, if_true, Memory.read_erase]
  · rw [if_neg hv]
    by_cases hb : b = a
    · subst hb; simp [Memory.read_insert_erase]
    · rw [Memory.read_insert_of_ne _ _ _ _ hb, Memory.read_erase]
      simp [hb]

/-- The canonical form with a lower bound. -/
theorem Memory.canonicalFrom_cons (low a : Nat) (v : Byte) (rest : Memory) :
    Memory.canonicalFrom low ((a, v) :: rest) = true ↔
      low ≤ a ∧ a < 2 ^ 24 ∧ v ≠ Config.unlistedByte ∧ Memory.canonicalFrom (a + 1) rest = true := by
  simp [Memory.canonicalFrom, and_assoc]

theorem Memory.canonicalFrom_mono {low low' : Nat} (h : low' ≤ low) :
    ∀ mem : Memory, Memory.canonicalFrom low mem = true → Memory.canonicalFrom low' mem = true
  | [], _ => rfl
  | (a, v) :: rest, hm => by
    rw [Memory.canonicalFrom_cons] at *
    exact ⟨h.trans hm.1, hm.2⟩

theorem Memory.canonicalFrom_erase (a : Nat) :
    ∀ (mem : Memory) (low : Nat), Memory.canonicalFrom low mem = true →
      Memory.canonicalFrom low (Memory.erase mem a) = true
  | [], _, _ => rfl
  | (b, v) :: rest, low, hm => by
    rw [Memory.canonicalFrom_cons] at hm
    have ih := Memory.canonicalFrom_erase a rest (b + 1) hm.2.2.2
    by_cases hb : b = a
    · simp only [Memory.erase, hb, if_true]
      exact Memory.canonicalFrom_mono (by omega) _ ih
    · simp only [Memory.erase, hb, if_false, Memory.canonicalFrom_cons]
      exact ⟨hm.1, hm.2.1, hm.2.2.1, ih⟩

theorem Memory.canonicalFrom_insert_erase (a : Nat) (v : Byte) (ha : a < 2 ^ 24) (hv : v ≠ Config.unlistedByte) :
    ∀ (mem : Memory) (low : Nat), low ≤ a → Memory.canonicalFrom low mem = true →
      Memory.canonicalFrom low (Memory.insert (Memory.erase mem a) a v) = true
  | [], low, hl, _ => by
    simp only [Memory.erase, Memory.insert, Memory.canonicalFrom_cons]
    exact ⟨hl, ha, hv, rfl⟩
  | (b, u) :: rest, low, hl, hm => by
    rw [Memory.canonicalFrom_cons] at hm
    rcases Nat.lt_trichotomy b a with hb | hb | hb
    · have ih := Memory.canonicalFrom_insert_erase a v ha hv rest (b + 1) hb hm.2.2.2
      simp only [Memory.erase, if_neg (Nat.ne_of_lt hb), Memory.insert, if_neg (Nat.not_lt_of_lt hb),
        Memory.canonicalFrom_cons]
      exact ⟨hm.1, hm.2.1, hm.2.2.1, ih⟩
    · subst hb
      simp only [Memory.erase, if_true]
      exact Memory.canonicalFrom_insert_erase b v ha hv rest low hl
        (Memory.canonicalFrom_mono (by omega) _ hm.2.2.2)
    · have he := Memory.canonicalFrom_erase a rest (b + 1) hm.2.2.2
      simp only [Memory.erase, if_neg (Nat.ne_of_gt hb), Memory.insert, if_pos hb, Memory.canonicalFrom_cons]
      exact ⟨hl, ha, hv, hb, hm.2.1, hm.2.2.1, he⟩

/-- A write keeps the canonical form. -/
theorem Memory.wf_write (mem : Memory) (a : Nat) (v : Byte) (ha : a < 2 ^ 24) (h : Memory.wf mem = true) :
    Memory.wf (Memory.write mem a v) = true := by
  unfold Memory.write Memory.wf at *
  split
  · exact Memory.canonicalFrom_erase _ _ _ h
  · exact Memory.canonicalFrom_insert_erase _ _ ha ‹_› _ _ (Nat.zero_le _) h

theorem Memory.wf_nil : Memory.wf [] = true := rfl

/-- Memory after reset has the canonical form. -/
theorem Memory.wf_reset : Memory.wf State.reset.mem = true := rfl

/-- Below its lower bound a canonical list reads as unlisted. -/
theorem Memory.read_below (mem : Memory) :
    ∀ low a, a < low → Memory.canonicalFrom low mem = true → Memory.read mem a = Config.unlistedByte := by
  induction mem with
  | nil => intros; rfl
  | cons cell rest ih =>
    obtain ⟨b, v⟩ := cell
    intro low a ha h
    rw [Memory.canonicalFrom_cons] at h
    simp only [Memory.read, if_neg (show b ≠ a by omega)]
    exact ih (b + 1) a (by omega) h.2.2.2

/-- Two canonical lists with one lower bound that read alike are equal. -/
theorem Memory.eq_of_read_eq :
    ∀ (m n : Memory) (low : Nat), Memory.canonicalFrom low m = true → Memory.canonicalFrom low n = true →
      (∀ a, a < 2 ^ 24 → Memory.read m a = Memory.read n a) → m = n
  | [], [], _, _, _, _ => rfl
  | [], (b, v) :: rest, low, _, hn, h => by
    rw [Memory.canonicalFrom_cons] at hn
    have := h b hn.2.1
    simp [Memory.read] at this
    exact absurd this.symm hn.2.2.1
  | (b, v) :: rest, [], low, hm, _, h => by
    rw [Memory.canonicalFrom_cons] at hm
    have := h b hm.2.1
    simp [Memory.read] at this
    exact absurd this hm.2.2.1
  | (a, u) :: m, (b, v) :: n, low, hm, hn, h => by
    have hm' := hm
    have hn' := hn
    rw [Memory.canonicalFrom_cons] at hm hn
    rcases Nat.lt_trichotomy a b with hab | hab | hab
    · have h1 := h a hm.2.1
      rw [show Memory.read ((a, u) :: m) a = u by simp [Memory.read],
        Memory.read_below _ b a hab (by rw [Memory.canonicalFrom_cons]; exact ⟨le_rfl, hn.2⟩)] at h1
      exact absurd h1 hm.2.2.1
    · subst hab
      have huv : u = v := by simpa [Memory.read] using h a hm.2.1
      subst huv
      have hrest := Memory.eq_of_read_eq m n (a + 1) hm.2.2.2 hn.2.2.2 (by
        intro c hc
        by_cases hca : c = a
        · subst hca
          rw [Memory.read_below m (c + 1) c (by omega) hm.2.2.2, Memory.read_below n (c + 1) c (by omega) hn.2.2.2]
        · simpa [Memory.read, Ne.symm hca] using h c hc)
      rw [hrest]
    · have h1 := h b hn.2.1
      rw [show Memory.read ((b, v) :: n) b = v by simp [Memory.read],
        Memory.read_below _ a b hab (by rw [Memory.canonicalFrom_cons]; exact ⟨le_rfl, hm.2⟩)] at h1
      exact absurd h1.symm hn.2.2.1

/-- A read after a write, as bytes of the state. -/
theorem State.read_write_eq (s : State) (a b : Addr) (v : Byte) :
    (s.write a v).read b = if b.toNat = a.toNat then v else s.read b := by
  unfold State.read State.write
  exact Memory.read_write s.mem a.toNat b.toNat v

@[simp] theorem State.read_write_same (s : State) (a : Addr) (v : Byte) : (s.write a v).read a = v := by
  simp [State.read_write_eq]

theorem State.read_write_of_ne (s : State) (a b : Addr) (v : Byte) (h : b ≠ a) :
    (s.write a v).read b = s.read b := by
  rw [State.read_write_eq, if_neg (fun hn => h (BitVec.eq_of_toNat_eq hn))]

/-- A write keeps the canonical form of the state's memory. -/
theorem State.wf_write (s : State) (a : Addr) (v : Byte) (h : Memory.wf s.mem = true) :
    Memory.wf (s.write a v).mem = true :=
  Memory.wf_write _ _ _ a.isLt h

/-- Reading depends on the memory alone. -/
theorem State.read_congr {s t : State} (h : t.mem = s.mem) (a : Addr) : t.read a = s.read a := by
  unfold State.read; rw [h]

end Sys2Proof.Machine
end

