-- ==== Sys2Proof/Laws/Operands.lean ====
section
/-! SUPPORT. Operands: the two addresses of a datum differ in every mode, what reads and writes through them do, and
what the shared instruction shapes do to a state. -/

namespace Sys2Proof.Machine

theorem linear_ne (a : Addr) : (linear a).a1 ≠ (linear a).a0 := inc24_ne a

theorem inBank_ne (a : Addr) : (inBank a).a1 ≠ (inBank a).a0 := inc16_ne a

theorem dpNext_ne (s : State) (k : Nat) : dpNext s k ≠ dp s k := by
  unfold dpNext
  by_cases h : pageWrap s = true
  · rw [if_pos h]
    unfold dp
    rw [if_pos h, if_pos h]
    intro he
    have := (joinBytes_inj.mp (bankAddr_inj.mp he).2).2
    have := congrArg BitVec.toNat this
    simp only [BitVec.toNat_ofNat] at this
    omega
  · rw [if_neg h]
    exact inc16_ne _

/-- The two addresses of a 16-bit datum differ in every mode. -/
theorem Mode.ea_ne (mode : Mode) (s : State) : (mode.ea s).a1 ≠ (mode.ea s).a0 := by
  cases mode
  · exact dpNext_ne s _
  · exact dpNext_ne s _
  · exact dpNext_ne s _
  all_goals first | exact linear_ne _ | exact inBank_ne _

/-- What a store leaves at every address. -/
theorem writeData_read (ea : EA) (w : Width) (v : Word) (s : State) (a : Addr) :
    (writeData ea w v s).read a =
      match w with
      | .w8 => if a = ea.a0 then lowByte v else s.read a
      | .w16 => if a = ea.a1 then highByte v else if a = ea.a0 then lowByte v else s.read a := by
  cases w <;> simp only [writeData, State.read_write_eq, BitVec.toNat_inj]

/-- What a read-modify-write instruction leaves at every address. -/
theorem writeBack_read (ea : EA) (w : Width) (v : Word) (s : State) (a : Addr) :
    (writeBack ea w v s).read a =
      match w with
      | .w8 => if a = ea.a0 then lowByte v else s.read a
      | .w16 => if a = ea.a0 then lowByte v else if a = ea.a1 then highByte v else s.read a := by
  cases w <;> simp only [writeBack, State.read_write_eq, BitVec.toNat_inj]

theorem writeData_wf (ea : EA) (w : Width) (v : Word) (s : State) (h : Memory.wf s.mem = true) :
    Memory.wf (writeData ea w v s).mem = true := by
  cases w
  · exact State.wf_write _ _ _ h
  · exact State.wf_write _ _ _ (State.wf_write _ _ _ h)

theorem writeBack_wf (ea : EA) (w : Width) (v : Word) (s : State) (h : Memory.wf s.mem = true) :
    Memory.wf (writeBack ea w v s).mem = true := by
  cases w
  · exact State.wf_write _ _ _ h
  · exact State.wf_write _ _ _ (State.wf_write _ _ _ h)

/-- A datum has `w` bits. -/
theorem truncTo_readData (ea : EA) (w : Width) (s : State) : truncTo w (readData ea w s) = readData ea w s := by
  cases w <;> simp [readData, truncTo]

/-- The value of an operand has `w` bits. -/
theorem truncTo_value (o : Operand) (w : Width) (s : State) : truncTo w (o.value w s) = o.value w s := by
  cases o
  · simp [Operand.value]
  · exact truncTo_readData _ _ _

/-- Reading a datum depends on its bytes alone. -/
theorem readData_congr {s t : State} (h : t.mem = s.mem) (ea : EA) (w : Width) : readData ea w t = readData ea w s := by
  cases w <;> simp only [readData, State.read_congr h]

/-! ## The shared shapes of an instruction -/

theorem readInstr_next (w : Width) (op : Width → Word → State → State) (o : Operand) (s : State) :
    readInstr w op o s = .next (advance (o.length w) (op w (o.value w s) s)) := rfl

theorem storeInstr_next (w : Width) (v : Word) (mode : Mode) (s : State) :
    storeInstr w v mode s =
      .next { s with
        mem := (writeData (mode.ea s) w v s).mem
        pc := s.pc + BitVec.ofNat 16 mode.length } := by
  cases w <;> rfl

theorem modifyMemory_next (f : Modify) (mode : Mode) (s : State) :
    modifyMemory f mode s =
      .next { s with
        mem := (writeBack (mode.ea s) (wm s) (f (wm s) s.p (readData (mode.ea s) (wm s) s)).1 s).mem
        p := (f (wm s) s.p (readData (mode.ea s) (wm s) s)).2
        pc := s.pc + BitVec.ofNat 16 mode.length } := by
  unfold modifyMemory
  cases h : wm s <;> rfl

theorem modifyAccumulator_next (f : Modify) (s : State) :
    modifyAccumulator f s =
      .next { s with
        c := mergeAcc (wm s) s.c (f (wm s) s.p (accAt (wm s) s)).1
        p := (f (wm s) s.p (accAt (wm s) s)).2
        pc := s.pc + 1 } := rfl

theorem highByte_mergeAcc (old v : Word) : highByte (mergeAcc .w8 old v) = highByte old := by
  simp [mergeAcc]

/-- The accumulator after a write of a `w`-bit value is its low `w` bits. -/
theorem truncTo_mergeAcc (w : Width) (old v : Word) : truncTo w (mergeAcc w old v) = truncTo w v := by
  cases w <;> simp [truncTo, mergeAcc]

end Sys2Proof.Machine
end

