-- ==== Sys2Proof/Laws/Stack.lean ====
section
/-! SUPPORT. The stack: where pushes write and pulls read, and that the bytes of one frame have different addresses. -/

namespace Sys2Proof.Machine

theorem stackAddr_inj {a b : Word} : stackAddr a = stackAddr b ↔ a = b := by
  simp [stackAddr, bankAddr_inj]

theorem stackAddr_ne {a b : Word} (h : a ≠ b) : stackAddr a ≠ stackAddr b := fun he => h (stackAddr_inj.mp he)

@[simp] theorem pushPointer_native (sp : Word) : pushPointer false sp = sp - 1 := rfl
@[simp] theorem pushPointer_emulation (sp : Word) : pushPointer true sp = joinBytes 0x01 (lowByte sp - 1) := rfl
@[simp] theorem pullPointer_native (sp : Word) : pullPointer false sp = sp + 1 := rfl
@[simp] theorem pullPointer_emulation (sp : Word) : pullPointer true sp = joinBytes 0x01 (lowByte sp + 1) := rfl

/-- A push moves the pointer. -/
theorem pushPointer_ne (e : Bool) (sp : Word) : pushPointer e sp ≠ sp := by
  cases e
  · simp
  · intro h
    have := congrArg lowByte h
    simp at this

/-- What one push does. -/
theorem push8_read (v : Byte) (s : State) (a : Addr) :
    (push8 v s).read a = if a = stackAddr s.sp then v else s.read a := by
  have h : (push8 v s).read a = (s.write (stackAddr s.sp) v).read a := State.read_congr rfl a
  rw [h]
  by_cases ha : a = stackAddr s.sp
  · subst ha; simp
  · rw [if_neg ha, State.read_write_of_ne _ _ _ _ ha]

theorem push8n_read (v : Byte) (s : State) (a : Addr) :
    (push8n v s).read a = if a = stackAddr s.sp then v else s.read a := by
  have h : (push8n v s).read a = (s.write (stackAddr s.sp) v).read a := State.read_congr rfl a
  rw [h]
  by_cases ha : a = stackAddr s.sp
  · subst ha; simp
  · rw [if_neg ha, State.read_write_of_ne _ _ _ _ ha]

theorem push16_read (v : Word) (s : State) (a : Addr) :
    (push16 v s).read a =
      if a = stackAddr (pushPointer s.e s.sp) then lowByte v
      else if a = stackAddr s.sp then highByte v else s.read a := by
  simp only [push16, push8_read, push8_sp]

theorem push16n_read (v : Word) (s : State) (a : Addr) :
    (push16n v s).read a =
      if a = stackAddr (s.sp - 1) then lowByte v
      else if a = stackAddr s.sp then highByte v else s.read a := by
  simp only [push16n, push8n_read, push8n_sp]

theorem push8_wf (v : Byte) (s : State) (h : Memory.wf s.mem = true) : Memory.wf (push8 v s).mem = true :=
  State.wf_write s _ v h

theorem push8n_wf (v : Byte) (s : State) (h : Memory.wf s.mem = true) : Memory.wf (push8n v s).mem = true :=
  State.wf_write s _ v h

theorem push16_wf (v : Word) (s : State) (h : Memory.wf s.mem = true) : Memory.wf (push16 v s).mem = true :=
  push8_wf _ _ (push8_wf _ _ h)

theorem push16n_wf (v : Word) (s : State) (h : Memory.wf s.mem = true) : Memory.wf (push16n v s).mem = true :=
  push8n_wf _ _ (push8n_wf _ _ h)

theorem pushAt_wf (w : Width) (v : Word) (s : State) (h : Memory.wf s.mem = true) :
    Memory.wf (pushAt w v s).mem = true := by
  cases w
  · exact push8_wf _ _ h
  · exact push16_wf _ _ h

theorem pushFrame_wf (src : Source) (ret : Word) (s : State) (h : Memory.wf s.mem = true) :
    Memory.wf (pushFrame src ret s).mem = true := by
  unfold pushFrame
  cases s.e
  · exact push8_wf _ _ (push16_wf _ _ (push8_wf _ _ h))
  · exact push8_wf _ _ (push16_wf _ _ h)

/-- An interrupt entry keeps the canonical form. -/
theorem interruptEntry_wf (src : Source) (ret : Word) (s : State) (h : Memory.wf s.mem = true) :
    Memory.wf (interruptEntry src ret s).mem = true := by
  have := pushFrame_wf src ret s h
  simpa [interruptEntry] using this

/-- A pull reads one byte and moves the pointer. -/
theorem pull8_eq (s : State) :
    pull8 s = (s.read (stackAddr (pullPointer s.e s.sp)), { s with sp := pullPointer s.e s.sp }) := rfl

theorem pull16_value (s : State) :
    (pull16 s).1 = joinBytes (s.read (stackAddr (pullPointer s.e (pullPointer s.e s.sp))))
      (s.read (stackAddr (pullPointer s.e s.sp))) := rfl

theorem pull16n_value (s : State) :
    (pull16n s).1 = joinBytes (s.read (stackAddr (s.sp + 1 + 1))) (s.read (stackAddr (s.sp + 1))) := rfl

/-- `SH` is $01 after `EndStackN` in emulation mode. -/
theorem endStackN_sp (s : State) :
    (endStackN s).sp = if s.e then joinBytes 0x01 (lowByte s.sp) else s.sp := by
  cases h : s.e <;> simp [endStackN, h]

/-- The stack pointer is in page 1 after a push or a pull in emulation mode. -/
theorem highByte_pushPointer (sp : Word) : highByte (pushPointer true sp) = 0x01 := by simp

theorem highByte_pullPointer (sp : Word) : highByte (pullPointer true sp) = 0x01 := by simp

end Sys2Proof.Machine
end

