-- ==== Sys2Proof/Laws/Shapes.lean ====
section
/-! SUPPORT. The shape of every instruction: 193 of the 256 are a read, a store, a read-modify-write or a branch over one
shared operation each. A proof over all instructions goes by `exec_shape` and one lemma for each shape, and has the 63
others left, which `shapeOf` answers `.own` for. -/

namespace Sys2Proof.Machine

/-- The operations of the instructions that read an operand. -/
inductive ReadOp where
  | adc | sbc | cmp | and | eor | ora | bit | bitImm | lda | cpx | cpy | ldx | ldy

/-- What the operation does. -/
def ReadOp.function : ReadOp → Width → Word → State → State
  | .adc => Machine.adc
  | .sbc => Machine.sbc
  | .cmp => Machine.cmp
  | .and => andAcc
  | .eor => eorAcc
  | .ora => oraAcc
  | .bit => bitMemory
  | .bitImm => bitImmediate
  | .lda => Machine.lda
  | .cpx => Machine.cpx
  | .cpy => Machine.cpy
  | .ldx => Machine.ldx
  | .ldy => Machine.ldy

/-- The width of the operation. -/
def ReadOp.width (s : State) : ReadOp → Width
  | .cpx | .cpy | .ldx | .ldy => wx s
  | .adc | .sbc | .cmp | .and | .eor | .ora | .bit | .bitImm | .lda => wm s

/-- The instructions that store. -/
inductive StoreOp where
  | sta | stx | sty | stz

/-- The width that is stored. -/
def StoreOp.width (s : State) : StoreOp → Width
  | .stx | .sty => wx s
  | .sta | .stz => wm s

/-- The value that is stored. -/
def StoreOp.value (s : State) : StoreOp → Word
  | .sta => s.c
  | .stx => s.x
  | .sty => s.y
  | .stz => 0x0000

/-- The function of a read-modify-write operation on a number. -/
def Modification.function : Modification → Modify
  | .asl => aslValue
  | .lsr => lsrValue
  | .rol => rolValue
  | .ror => rorValue
  | .dec => decValue
  | .inc => incValue

/-- The read-modify-write instructions on memory. -/
inductive ModifyOp where
  | number (k : Modification)
  | tsb
  | trb

/-- The function that the instruction applies to memory. -/
def ModifyOp.function (s : State) : ModifyOp → Modify
  | .number k => k.function
  | .tsb => tsbValue (accAt (wm s) s)
  | .trb => trbValue (accAt (wm s) s)

/-- The shape of an instruction. -/
inductive Shape where
  | read (op : ReadOp) (o : Operand)
  | store (op : StoreOp) (mode : Mode)
  | modify (op : ModifyOp) (mode : Mode)
  | modifyAcc (op : Modification)
  /-- A flag and the value it must have, or always. -/
  | branch (cond : Option (Flag × Bool)) (r : Byte)
  /-- None of these: an instruction with a meaning of its own. -/
  | own

/-- The shape of each instruction. -/
def shapeOf : Instr → Shape
  | .oraDirXInd o => .read .ora (.mem (.dirXInd o))
  | .oraStk o => .read .ora (.mem (.stk o))
  | .tsbDir o => .modify .tsb (.dir o)
  | .oraDir o => .read .ora (.mem (.dir o))
  | .aslDir o => .modify (.number .asl) (.dir o)
  | .oraDirLong o => .read .ora (.mem (.dirLong o))
  | .oraImm v => .read .ora (.imm v)
  | .aslAcc => .modifyAcc .asl
  | .tsbAbs a => .modify .tsb (.abs a)
  | .oraAbs a => .read .ora (.mem (.abs a))
  | .aslAbs a => .modify (.number .asl) (.abs a)
  | .oraLong l => .read .ora (.mem (.long l))
  | .bpl r => .branch (some (.n, false)) r
  | .oraDirIndY o => .read .ora (.mem (.dirIndY o))
  | .oraDirInd o => .read .ora (.mem (.dirInd o))
  | .oraStkIndY o => .read .ora (.mem (.stkIndY o))
  | .trbDir o => .modify .trb (.dir o)
  | .oraDirX o => .read .ora (.mem (.dirX o))
  | .aslDirX o => .modify (.number .asl) (.dirX o)
  | .oraDirLongY o => .read .ora (.mem (.dirLongY o))
  | .oraAbsY a => .read .ora (.mem (.absY a))
  | .incAcc => .modifyAcc .inc
  | .trbAbs a => .modify .trb (.abs a)
  | .oraAbsX a => .read .ora (.mem (.absX a))
  | .aslAbsX a => .modify (.number .asl) (.absX a)
  | .oraLongX l => .read .ora (.mem (.longX l))
  | .andDirXInd o => .read .and (.mem (.dirXInd o))
  | .andStk o => .read .and (.mem (.stk o))
  | .bitDir o => .read .bit (.mem (.dir o))
  | .andDir o => .read .and (.mem (.dir o))
  | .rolDir o => .modify (.number .rol) (.dir o)
  | .andDirLong o => .read .and (.mem (.dirLong o))
  | .andImm v => .read .and (.imm v)
  | .rolAcc => .modifyAcc .rol
  | .bitAbs a => .read .bit (.mem (.abs a))
  | .andAbs a => .read .and (.mem (.abs a))
  | .rolAbs a => .modify (.number .rol) (.abs a)
  | .andLong l => .read .and (.mem (.long l))
  | .bmi r => .branch (some (.n, true)) r
  | .andDirIndY o => .read .and (.mem (.dirIndY o))
  | .andDirInd o => .read .and (.mem (.dirInd o))
  | .andStkIndY o => .read .and (.mem (.stkIndY o))
  | .bitDirX o => .read .bit (.mem (.dirX o))
  | .andDirX o => .read .and (.mem (.dirX o))
  | .rolDirX o => .modify (.number .rol) (.dirX o)
  | .andDirLongY o => .read .and (.mem (.dirLongY o))
  | .andAbsY a => .read .and (.mem (.absY a))
  | .decAcc => .modifyAcc .dec
  | .bitAbsX a => .read .bit (.mem (.absX a))
  | .andAbsX a => .read .and (.mem (.absX a))
  | .rolAbsX a => .modify (.number .rol) (.absX a)
  | .andLongX l => .read .and (.mem (.longX l))
  | .eorDirXInd o => .read .eor (.mem (.dirXInd o))
  | .eorStk o => .read .eor (.mem (.stk o))
  | .eorDir o => .read .eor (.mem (.dir o))
  | .lsrDir o => .modify (.number .lsr) (.dir o)
  | .eorDirLong o => .read .eor (.mem (.dirLong o))
  | .eorImm v => .read .eor (.imm v)
  | .lsrAcc => .modifyAcc .lsr
  | .eorAbs a => .read .eor (.mem (.abs a))
  | .lsrAbs a => .modify (.number .lsr) (.abs a)
  | .eorLong l => .read .eor (.mem (.long l))
  | .bvc r => .branch (some (.v, false)) r
  | .eorDirIndY o => .read .eor (.mem (.dirIndY o))
  | .eorDirInd o => .read .eor (.mem (.dirInd o))
  | .eorStkIndY o => .read .eor (.mem (.stkIndY o))
  | .eorDirX o => .read .eor (.mem (.dirX o))
  | .lsrDirX o => .modify (.number .lsr) (.dirX o)
  | .eorDirLongY o => .read .eor (.mem (.dirLongY o))
  | .eorAbsY a => .read .eor (.mem (.absY a))
  | .eorAbsX a => .read .eor (.mem (.absX a))
  | .lsrAbsX a => .modify (.number .lsr) (.absX a)
  | .eorLongX l => .read .eor (.mem (.longX l))
  | .adcDirXInd o => .read .adc (.mem (.dirXInd o))
  | .adcStk o => .read .adc (.mem (.stk o))
  | .stzDir o => .store .stz (.dir o)
  | .adcDir o => .read .adc (.mem (.dir o))
  | .rorDir o => .modify (.number .ror) (.dir o)
  | .adcDirLong o => .read .adc (.mem (.dirLong o))
  | .adcImm v => .read .adc (.imm v)
  | .rorAcc => .modifyAcc .ror
  | .adcAbs a => .read .adc (.mem (.abs a))
  | .rorAbs a => .modify (.number .ror) (.abs a)
  | .adcLong l => .read .adc (.mem (.long l))
  | .bvs r => .branch (some (.v, true)) r
  | .adcDirIndY o => .read .adc (.mem (.dirIndY o))
  | .adcDirInd o => .read .adc (.mem (.dirInd o))
  | .adcStkIndY o => .read .adc (.mem (.stkIndY o))
  | .stzDirX o => .store .stz (.dirX o)
  | .adcDirX o => .read .adc (.mem (.dirX o))
  | .rorDirX o => .modify (.number .ror) (.dirX o)
  | .adcDirLongY o => .read .adc (.mem (.dirLongY o))
  | .adcAbsY a => .read .adc (.mem (.absY a))
  | .adcAbsX a => .read .adc (.mem (.absX a))
  | .rorAbsX a => .modify (.number .ror) (.absX a)
  | .adcLongX l => .read .adc (.mem (.longX l))
  | .bra r => .branch none r
  | .staDirXInd o => .store .sta (.dirXInd o)
  | .staStk o => .store .sta (.stk o)
  | .styDir o => .store .sty (.dir o)
  | .staDir o => .store .sta (.dir o)
  | .stxDir o => .store .stx (.dir o)
  | .staDirLong o => .store .sta (.dirLong o)
  | .bitImm v => .read .bitImm (.imm v)
  | .styAbs a => .store .sty (.abs a)
  | .staAbs a => .store .sta (.abs a)
  | .stxAbs a => .store .stx (.abs a)
  | .staLong l => .store .sta (.long l)
  | .bcc r => .branch (some (.c, false)) r
  | .staDirIndY o => .store .sta (.dirIndY o)
  | .staDirInd o => .store .sta (.dirInd o)
  | .staStkIndY o => .store .sta (.stkIndY o)
  | .styDirX o => .store .sty (.dirX o)
  | .staDirX o => .store .sta (.dirX o)
  | .stxDirY o => .store .stx (.dirY o)
  | .staDirLongY o => .store .sta (.dirLongY o)
  | .staAbsY a => .store .sta (.absY a)
  | .stzAbs a => .store .stz (.abs a)
  | .staAbsX a => .store .sta (.absX a)
  | .stzAbsX a => .store .stz (.absX a)
  | .staLongX l => .store .sta (.longX l)
  | .ldyImm v => .read .ldy (.imm v)
  | .ldaDirXInd o => .read .lda (.mem (.dirXInd o))
  | .ldxImm v => .read .ldx (.imm v)
  | .ldaStk o => .read .lda (.mem (.stk o))
  | .ldyDir o => .read .ldy (.mem (.dir o))
  | .ldaDir o => .read .lda (.mem (.dir o))
  | .ldxDir o => .read .ldx (.mem (.dir o))
  | .ldaDirLong o => .read .lda (.mem (.dirLong o))
  | .ldaImm v => .read .lda (.imm v)
  | .ldyAbs a => .read .ldy (.mem (.abs a))
  | .ldaAbs a => .read .lda (.mem (.abs a))
  | .ldxAbs a => .read .ldx (.mem (.abs a))
  | .ldaLong l => .read .lda (.mem (.long l))
  | .bcs r => .branch (some (.c, true)) r
  | .ldaDirIndY o => .read .lda (.mem (.dirIndY o))
  | .ldaDirInd o => .read .lda (.mem (.dirInd o))
  | .ldaStkIndY o => .read .lda (.mem (.stkIndY o))
  | .ldyDirX o => .read .ldy (.mem (.dirX o))
  | .ldaDirX o => .read .lda (.mem (.dirX o))
  | .ldxDirY o => .read .ldx (.mem (.dirY o))
  | .ldaDirLongY o => .read .lda (.mem (.dirLongY o))
  | .ldaAbsY a => .read .lda (.mem (.absY a))
  | .ldyAbsX a => .read .ldy (.mem (.absX a))
  | .ldaAbsX a => .read .lda (.mem (.absX a))
  | .ldxAbsY a => .read .ldx (.mem (.absY a))
  | .ldaLongX l => .read .lda (.mem (.longX l))
  | .cpyImm v => .read .cpy (.imm v)
  | .cmpDirXInd o => .read .cmp (.mem (.dirXInd o))
  | .cmpStk o => .read .cmp (.mem (.stk o))
  | .cpyDir o => .read .cpy (.mem (.dir o))
  | .cmpDir o => .read .cmp (.mem (.dir o))
  | .decDir o => .modify (.number .dec) (.dir o)
  | .cmpDirLong o => .read .cmp (.mem (.dirLong o))
  | .cmpImm v => .read .cmp (.imm v)
  | .cpyAbs a => .read .cpy (.mem (.abs a))
  | .cmpAbs a => .read .cmp (.mem (.abs a))
  | .decAbs a => .modify (.number .dec) (.abs a)
  | .cmpLong l => .read .cmp (.mem (.long l))
  | .bne r => .branch (some (.z, false)) r
  | .cmpDirIndY o => .read .cmp (.mem (.dirIndY o))
  | .cmpDirInd o => .read .cmp (.mem (.dirInd o))
  | .cmpStkIndY o => .read .cmp (.mem (.stkIndY o))
  | .cmpDirX o => .read .cmp (.mem (.dirX o))
  | .decDirX o => .modify (.number .dec) (.dirX o)
  | .cmpDirLongY o => .read .cmp (.mem (.dirLongY o))
  | .cmpAbsY a => .read .cmp (.mem (.absY a))
  | .cmpAbsX a => .read .cmp (.mem (.absX a))
  | .decAbsX a => .modify (.number .dec) (.absX a)
  | .cmpLongX l => .read .cmp (.mem (.longX l))
  | .cpxImm v => .read .cpx (.imm v)
  | .sbcDirXInd o => .read .sbc (.mem (.dirXInd o))
  | .sbcStk o => .read .sbc (.mem (.stk o))
  | .cpxDir o => .read .cpx (.mem (.dir o))
  | .sbcDir o => .read .sbc (.mem (.dir o))
  | .incDir o => .modify (.number .inc) (.dir o)
  | .sbcDirLong o => .read .sbc (.mem (.dirLong o))
  | .sbcImm v => .read .sbc (.imm v)
  | .cpxAbs a => .read .cpx (.mem (.abs a))
  | .sbcAbs a => .read .sbc (.mem (.abs a))
  | .incAbs a => .modify (.number .inc) (.abs a)
  | .sbcLong l => .read .sbc (.mem (.long l))
  | .beq r => .branch (some (.z, true)) r
  | .sbcDirIndY o => .read .sbc (.mem (.dirIndY o))
  | .sbcDirInd o => .read .sbc (.mem (.dirInd o))
  | .sbcStkIndY o => .read .sbc (.mem (.stkIndY o))
  | .sbcDirX o => .read .sbc (.mem (.dirX o))
  | .incDirX o => .modify (.number .inc) (.dirX o)
  | .sbcDirLongY o => .read .sbc (.mem (.dirLongY o))
  | .sbcAbsY a => .read .sbc (.mem (.absY a))
  | .sbcAbsX a => .read .sbc (.mem (.absX a))
  | .incAbsX a => .modify (.number .inc) (.absX a)
  | .sbcLongX l => .read .sbc (.mem (.longX l))
  | .brk _ | .cop _ | .php | .phd | .clc | .tcs | .jsrAbs _ | .jsl _ | .plp | .pld | .sec | .tsc | .rti | .wdm _
  | .mvp _ _ | .pha | .phk | .jmpAbs _ | .mvn _ _ | .cli | .phy | .tcd | .jmlLong _ | .rts | .per _ | .pla
  | .rtl | .jmpAbsInd _ | .sei | .ply | .tdc | .jmpAbsXInd _ | .brl _ | .dey | .txa | .phb | .tya | .txs | .txy
  | .tay | .tax | .plb | .clv | .tsx | .tyx | .rep _ | .iny | .dex | .wai | .pei _ | .cld | .phx | .stp
  | .jmlAbsLong _ | .sep _ | .inx | .nop | .xba | .pea _ | .sed | .plx | .xce | .jsrAbsXInd _ => .own

/-- The condition of a branch. -/
def branchTaken (s : State) : Option (Flag × Bool) → Bool
  | none => true
  | some (f, b) => if b then getFlag s.p f else !getFlag s.p f

/-- What a shape does; `own` for the instruction itself. -/
def Shape.run (i : Instr) (s : State) : Shape → Result
  | .read op o => readInstr (op.width s) op.function o s
  | .store op mode => storeInstr (op.width s) (op.value s) mode s
  | .modify op mode => modifyMemory (op.function s) mode s
  | .modifyAcc op => modifyAccumulator op.function s
  | .branch cond r => Machine.branch (branchTaken s cond) r s
  | .own => exec i s

/-- What an instruction does, by its shape. -/
theorem exec_shape (i : Instr) (s : State) : exec i s = (shapeOf i).run i s := by
  cases i <;> rfl

/-- The accesses of a shape; `own` for the instruction itself. -/
def Shape.accesses (i : Instr) (s : State) : Shape → List Access
  | .read op (.imm _) => immAccesses (op.width s) s
  | .read op (.mem mode) => loadAccesses (op.width s) mode s
  | .store op mode => storeAccesses (op.width s) mode s
  | .modify _ mode => modifyAccesses mode s
  | .modifyAcc _ => fetches s 0 1
  | .branch _ _ => fetches s 0 2
  | .own => Machine.accesses i s

/-- The accesses of an instruction, by its shape. -/
theorem accesses_shape (i : Instr) (s : State) : accesses i s = (shapeOf i).accesses i s := by
  cases i <;> rfl

/-- Every read-modify-write function leaves m, x, d and i alone. -/
theorem ModifyOp.keepsModes (op : ModifyOp) (s : State) : (op.function s).KeepsModes := by
  match op with
  | .number .asl => exact aslValue_keepsModes
  | .number .lsr => exact lsrValue_keepsModes
  | .number .rol => exact rolValue_keepsModes
  | .number .ror => exact rorValue_keepsModes
  | .number .dec => exact decValue_keepsModes
  | .number .inc => exact incValue_keepsModes
  | .tsb => exact tsbValue_keepsModes _
  | .trb => exact trbValue_keepsModes _

end Sys2Proof.Machine
end

