-- ==== Sys2Proof/Laws/Exec.lean ====
section
/-! SUPPORT. The meaning of every form of a mnemonic, as one shared shape over the form's operand. -/

namespace Sys2Proof.Machine

theorem exec_adcForms (v : Word) (o : Byte) (a : Word) (l : Addr) (s : State) : ∀ form ∈ adcForms v o a l,
    exec form.1 s = readInstr (wm s) adc form.2 s := by
  intro form h
  simp only [adcForms, List.mem_cons, List.not_mem_nil, or_false] at h
  rcases h with rfl | rfl | rfl | rfl | rfl | rfl | rfl | rfl | rfl | rfl | rfl | rfl | rfl | rfl | rfl <;> rfl

theorem exec_sbcForms (v : Word) (o : Byte) (a : Word) (l : Addr) (s : State) : ∀ form ∈ sbcForms v o a l,
    exec form.1 s = readInstr (wm s) sbc form.2 s := by
  intro form h
  simp only [sbcForms, List.mem_cons, List.not_mem_nil, or_false] at h
  rcases h with rfl | rfl | rfl | rfl | rfl | rfl | rfl | rfl | rfl | rfl | rfl | rfl | rfl | rfl | rfl <;> rfl

theorem exec_cmpForms (v : Word) (o : Byte) (a : Word) (l : Addr) (s : State) : ∀ form ∈ cmpForms v o a l,
    exec form.1 s = readInstr (wm s) cmp form.2 s := by
  intro form h
  simp only [cmpForms, List.mem_cons, List.not_mem_nil, or_false] at h
  rcases h with rfl | rfl | rfl | rfl | rfl | rfl | rfl | rfl | rfl | rfl | rfl | rfl | rfl | rfl | rfl <;> rfl

theorem exec_andForms (v : Word) (o : Byte) (a : Word) (l : Addr) (s : State) : ∀ form ∈ andForms v o a l,
    exec form.1 s = readInstr (wm s) andAcc form.2 s := by
  intro form h
  simp only [andForms, List.mem_cons, List.not_mem_nil, or_false] at h
  rcases h with rfl | rfl | rfl | rfl | rfl | rfl | rfl | rfl | rfl | rfl | rfl | rfl | rfl | rfl | rfl <;> rfl

theorem exec_eorForms (v : Word) (o : Byte) (a : Word) (l : Addr) (s : State) : ∀ form ∈ eorForms v o a l,
    exec form.1 s = readInstr (wm s) eorAcc form.2 s := by
  intro form h
  simp only [eorForms, List.mem_cons, List.not_mem_nil, or_false] at h
  rcases h with rfl | rfl | rfl | rfl | rfl | rfl | rfl | rfl | rfl | rfl | rfl | rfl | rfl | rfl | rfl <;> rfl

theorem exec_oraForms (v : Word) (o : Byte) (a : Word) (l : Addr) (s : State) : ∀ form ∈ oraForms v o a l,
    exec form.1 s = readInstr (wm s) oraAcc form.2 s := by
  intro form h
  simp only [oraForms, List.mem_cons, List.not_mem_nil, or_false] at h
  rcases h with rfl | rfl | rfl | rfl | rfl | rfl | rfl | rfl | rfl | rfl | rfl | rfl | rfl | rfl | rfl <;> rfl

theorem exec_ldaForms (v : Word) (o : Byte) (a : Word) (l : Addr) (s : State) : ∀ form ∈ ldaForms v o a l,
    exec form.1 s = readInstr (wm s) lda form.2 s := by
  intro form h
  simp only [ldaForms, List.mem_cons, List.not_mem_nil, or_false] at h
  rcases h with rfl | rfl | rfl | rfl | rfl | rfl | rfl | rfl | rfl | rfl | rfl | rfl | rfl | rfl | rfl <;> rfl

theorem exec_ldxForms (v : Word) (o : Byte) (a : Word) (s : State) : ∀ form ∈ ldxForms v o a,
    exec form.1 s = readInstr (wx s) ldx form.2 s := by
  intro form h
  simp only [ldxForms, List.mem_cons, List.not_mem_nil, or_false] at h
  rcases h with rfl | rfl | rfl | rfl | rfl <;> rfl

theorem exec_ldyForms (v : Word) (o : Byte) (a : Word) (s : State) : ∀ form ∈ ldyForms v o a,
    exec form.1 s = readInstr (wx s) ldy form.2 s := by
  intro form h
  simp only [ldyForms, List.mem_cons, List.not_mem_nil, or_false] at h
  rcases h with rfl | rfl | rfl | rfl | rfl <;> rfl

theorem exec_cpxForms (v : Word) (o : Byte) (a : Word) (s : State) : ∀ form ∈ cpxForms v o a,
    exec form.1 s = readInstr (wx s) cpx form.2 s := by
  intro form h
  simp only [cpxForms, List.mem_cons, List.not_mem_nil, or_false] at h
  rcases h with rfl | rfl | rfl <;> rfl

theorem exec_cpyForms (v : Word) (o : Byte) (a : Word) (s : State) : ∀ form ∈ cpyForms v o a,
    exec form.1 s = readInstr (wx s) cpy form.2 s := by
  intro form h
  simp only [cpyForms, List.mem_cons, List.not_mem_nil, or_false] at h
  rcases h with rfl | rfl | rfl <;> rfl

theorem exec_bitMemoryForms (o : Byte) (a : Word) (s : State) : ∀ form ∈ bitMemoryForms o a,
    exec form.1 s = readInstr (wm s) bitMemory form.2 s := by
  intro form h
  simp only [bitMemoryForms, List.mem_cons, List.not_mem_nil, or_false] at h
  rcases h with rfl | rfl | rfl | rfl <;> rfl

theorem exec_staForms (o : Byte) (a : Word) (l : Addr) (s : State) : ∀ form ∈ staForms o a l,
    exec form.1 s = storeInstr (wm s) s.c form.2 s := by
  intro form h
  simp only [staForms, List.mem_cons, List.not_mem_nil, or_false] at h
  rcases h with rfl | rfl | rfl | rfl | rfl | rfl | rfl | rfl | rfl | rfl | rfl | rfl | rfl | rfl <;> rfl

theorem exec_stxForms (o : Byte) (a : Word) (s : State) : ∀ form ∈ stxForms o a,
    exec form.1 s = storeInstr (wx s) s.x form.2 s := by
  intro form h
  simp only [stxForms, List.mem_cons, List.not_mem_nil, or_false] at h
  rcases h with rfl | rfl | rfl <;> rfl

theorem exec_styForms (o : Byte) (a : Word) (s : State) : ∀ form ∈ styForms o a,
    exec form.1 s = storeInstr (wx s) s.y form.2 s := by
  intro form h
  simp only [styForms, List.mem_cons, List.not_mem_nil, or_false] at h
  rcases h with rfl | rfl | rfl <;> rfl

theorem exec_stzForms (o : Byte) (a : Word) (s : State) : ∀ form ∈ stzForms o a,
    exec form.1 s = storeInstr (wm s) 0x0000 form.2 s := by
  intro form h
  simp only [stzForms, List.mem_cons, List.not_mem_nil, or_false] at h
  rcases h with rfl | rfl | rfl | rfl <;> rfl

theorem exec_tsbForms (o : Byte) (a : Word) (s : State) : ∀ form ∈ tsbForms o a,
    exec form.1 s = modifyMemory (tsbValue (accAt (wm s) s)) form.2 s := by
  intro form h
  simp only [tsbForms, List.mem_cons, List.not_mem_nil, or_false] at h
  rcases h with rfl | rfl <;> rfl

theorem exec_trbForms (o : Byte) (a : Word) (s : State) : ∀ form ∈ trbForms o a,
    exec form.1 s = modifyMemory (trbValue (accAt (wm s) s)) form.2 s := by
  intro form h
  simp only [trbForms, List.mem_cons, List.not_mem_nil, or_false] at h
  rcases h with rfl | rfl <;> rfl

theorem exec_modifyForms (o : Byte) (a : Word) (s : State) : ∀ form ∈ modifyForms o a,
    exec form.1 s = modifyMemory form.2.2.function form.2.1 s := by
  intro form h
  simp only [modifyForms, List.mem_cons, List.not_mem_nil, or_false] at h
  rcases h with rfl | rfl | rfl | rfl | rfl | rfl | rfl | rfl | rfl | rfl | rfl | rfl | rfl | rfl | rfl | rfl |
    rfl | rfl | rfl | rfl | rfl | rfl | rfl | rfl <;> rfl

theorem exec_accumulatorForms (s : State) : ∀ form ∈ accumulatorForms,
    exec form.1 s = modifyAccumulator form.2.function s := by
  intro form h
  simp only [accumulatorForms, List.mem_cons, List.not_mem_nil, or_false] at h
  rcases h with rfl | rfl | rfl | rfl | rfl | rfl <;> rfl

theorem exec_conditionalBranches (r : Byte) (s : State) : ∀ form ∈ conditionalBranches r,
    exec form.1 s = branch (getFlag s.p form.2.1 == form.2.2) r s := by
  intro form h
  simp only [conditionalBranches, List.mem_cons, List.not_mem_nil, or_false] at h
  rcases h with rfl | rfl | rfl | rfl | rfl | rfl | rfl | rfl <;>
    simp [exec, execBcc, execBcs, execBeq, execBne, execBmi, execBpl, execBvc, execBvs]

theorem exec_flagInstructions (s : State) : ∀ form ∈ flagInstructions,
    exec form.1 s = writeFlag form.2.1 form.2.2 s := by
  intro form h
  simp only [flagInstructions, List.mem_cons, List.not_mem_nil, or_false] at h
  rcases h with rfl | rfl | rfl | rfl | rfl | rfl | rfl <;> rfl

end Sys2Proof.Machine
end

