-- ==== Sys2Proof/Laws/PerInstr.lean ====
section
/-! SUPPORT. Statements made for each instruction. `EncodeHead`: the first byte of an encoding is the opcode whose row of
the matrix makes the instruction, and the number of bytes after it is the number of operand bytes of that row. -/

namespace Sys2Proof.Laws

open Sys2Proof Machine

/-- At every width an encoding is an opcode followed by as many bytes as the opcode takes (R80, R82, R83). -/
def EncodeHead.Statement (i : Instr) : Prop :=
  ∀ m x : Bool, ∃ op ops, encode m x i = op :: ops ∧ ops.length = operandBytes m x (formOf op)

theorem EncodeHead.of_fixed {i : Instr} (op : Byte) (ops : List Byte) (h : ∀ m x, encode m x i = op :: ops)
    (hl : ∀ m x, ops.length = operandBytes m x (formOf op)) : EncodeHead.Statement i :=
  fun m x => ⟨op, ops, h m x, hl m x⟩

theorem EncodeHead.of_immM {i : Instr} (op : Byte) (v : Word) (f : Word → Instr)
    (h : ∀ m x, encode m x i = op :: immBytes m v) (hf : formOf op = .immM f) : EncodeHead.Statement i := by
  intro m x
  refine ⟨op, immBytes m v, h m x, ?_⟩
  rw [hf]
  cases m <;> rfl

theorem EncodeHead.of_immX {i : Instr} (op : Byte) (v : Word) (f : Word → Instr)
    (h : ∀ m x, encode m x i = op :: immBytes x v) (hf : formOf op = .immX f) : EncodeHead.Statement i := by
  intro m x
  refine ⟨op, immBytes x v, h m x, ?_⟩
  rw [hf]
  cases x <;> rfl

theorem EncodeHead.brk (sig : Byte) : EncodeHead.Statement (.brk sig) :=
  of_fixed _ _ (fun _ _ => rfl) fun _ _ => rfl
theorem EncodeHead.oraDirXInd (o : Byte) : EncodeHead.Statement (.oraDirXInd o) :=
  of_fixed _ _ (fun _ _ => rfl) fun _ _ => rfl
theorem EncodeHead.cop (sig : Byte) : EncodeHead.Statement (.cop sig) :=
  of_fixed _ _ (fun _ _ => rfl) fun _ _ => rfl
theorem EncodeHead.oraStk (o : Byte) : EncodeHead.Statement (.oraStk o) :=
  of_fixed _ _ (fun _ _ => rfl) fun _ _ => rfl
theorem EncodeHead.tsbDir (o : Byte) : EncodeHead.Statement (.tsbDir o) :=
  of_fixed _ _ (fun _ _ => rfl) fun _ _ => rfl
theorem EncodeHead.oraDir (o : Byte) : EncodeHead.Statement (.oraDir o) :=
  of_fixed _ _ (fun _ _ => rfl) fun _ _ => rfl
theorem EncodeHead.aslDir (o : Byte) : EncodeHead.Statement (.aslDir o) :=
  of_fixed _ _ (fun _ _ => rfl) fun _ _ => rfl
theorem EncodeHead.oraDirLong (o : Byte) : EncodeHead.Statement (.oraDirLong o) :=
  of_fixed _ _ (fun _ _ => rfl) fun _ _ => rfl
theorem EncodeHead.php : EncodeHead.Statement (.php) :=
  of_fixed _ _ (fun _ _ => rfl) fun _ _ => rfl
theorem EncodeHead.oraImm (v : Word) : EncodeHead.Statement (.oraImm v) :=
  of_immM _ v _ (fun _ _ => rfl) rfl
theorem EncodeHead.aslAcc : EncodeHead.Statement (.aslAcc) :=
  of_fixed _ _ (fun _ _ => rfl) fun _ _ => rfl
theorem EncodeHead.phd : EncodeHead.Statement (.phd) :=
  of_fixed _ _ (fun _ _ => rfl) fun _ _ => rfl
theorem EncodeHead.tsbAbs (a : Word) : EncodeHead.Statement (.tsbAbs a) :=
  of_fixed _ _ (fun _ _ => rfl) fun _ _ => rfl
theorem EncodeHead.oraAbs (a : Word) : EncodeHead.Statement (.oraAbs a) :=
  of_fixed _ _ (fun _ _ => rfl) fun _ _ => rfl
theorem EncodeHead.aslAbs (a : Word) : EncodeHead.Statement (.aslAbs a) :=
  of_fixed _ _ (fun _ _ => rfl) fun _ _ => rfl
theorem EncodeHead.oraLong (l : Addr) : EncodeHead.Statement (.oraLong l) :=
  of_fixed _ _ (fun _ _ => rfl) fun _ _ => rfl
theorem EncodeHead.bpl (r : Byte) : EncodeHead.Statement (.bpl r) :=
  of_fixed _ _ (fun _ _ => rfl) fun _ _ => rfl
theorem EncodeHead.oraDirIndY (o : Byte) : EncodeHead.Statement (.oraDirIndY o) :=
  of_fixed _ _ (fun _ _ => rfl) fun _ _ => rfl
theorem EncodeHead.oraDirInd (o : Byte) : EncodeHead.Statement (.oraDirInd o) :=
  of_fixed _ _ (fun _ _ => rfl) fun _ _ => rfl
theorem EncodeHead.oraStkIndY (o : Byte) : EncodeHead.Statement (.oraStkIndY o) :=
  of_fixed _ _ (fun _ _ => rfl) fun _ _ => rfl
theorem EncodeHead.trbDir (o : Byte) : EncodeHead.Statement (.trbDir o) :=
  of_fixed _ _ (fun _ _ => rfl) fun _ _ => rfl
theorem EncodeHead.oraDirX (o : Byte) : EncodeHead.Statement (.oraDirX o) :=
  of_fixed _ _ (fun _ _ => rfl) fun _ _ => rfl
theorem EncodeHead.aslDirX (o : Byte) : EncodeHead.Statement (.aslDirX o) :=
  of_fixed _ _ (fun _ _ => rfl) fun _ _ => rfl
theorem EncodeHead.oraDirLongY (o : Byte) : EncodeHead.Statement (.oraDirLongY o) :=
  of_fixed _ _ (fun _ _ => rfl) fun _ _ => rfl
theorem EncodeHead.clc : EncodeHead.Statement (.clc) :=
  of_fixed _ _ (fun _ _ => rfl) fun _ _ => rfl
theorem EncodeHead.oraAbsY (a : Word) : EncodeHead.Statement (.oraAbsY a) :=
  of_fixed _ _ (fun _ _ => rfl) fun _ _ => rfl
theorem EncodeHead.incAcc : EncodeHead.Statement (.incAcc) :=
  of_fixed _ _ (fun _ _ => rfl) fun _ _ => rfl
theorem EncodeHead.tcs : EncodeHead.Statement (.tcs) :=
  of_fixed _ _ (fun _ _ => rfl) fun _ _ => rfl
theorem EncodeHead.trbAbs (a : Word) : EncodeHead.Statement (.trbAbs a) :=
  of_fixed _ _ (fun _ _ => rfl) fun _ _ => rfl
theorem EncodeHead.oraAbsX (a : Word) : EncodeHead.Statement (.oraAbsX a) :=
  of_fixed _ _ (fun _ _ => rfl) fun _ _ => rfl
theorem EncodeHead.aslAbsX (a : Word) : EncodeHead.Statement (.aslAbsX a) :=
  of_fixed _ _ (fun _ _ => rfl) fun _ _ => rfl
theorem EncodeHead.oraLongX (l : Addr) : EncodeHead.Statement (.oraLongX l) :=
  of_fixed _ _ (fun _ _ => rfl) fun _ _ => rfl
theorem EncodeHead.jsrAbs (a : Word) : EncodeHead.Statement (.jsrAbs a) :=
  of_fixed _ _ (fun _ _ => rfl) fun _ _ => rfl
theorem EncodeHead.andDirXInd (o : Byte) : EncodeHead.Statement (.andDirXInd o) :=
  of_fixed _ _ (fun _ _ => rfl) fun _ _ => rfl
theorem EncodeHead.jsl (l : Addr) : EncodeHead.Statement (.jsl l) :=
  of_fixed _ _ (fun _ _ => rfl) fun _ _ => rfl
theorem EncodeHead.andStk (o : Byte) : EncodeHead.Statement (.andStk o) :=
  of_fixed _ _ (fun _ _ => rfl) fun _ _ => rfl
theorem EncodeHead.bitDir (o : Byte) : EncodeHead.Statement (.bitDir o) :=
  of_fixed _ _ (fun _ _ => rfl) fun _ _ => rfl
theorem EncodeHead.andDir (o : Byte) : EncodeHead.Statement (.andDir o) :=
  of_fixed _ _ (fun _ _ => rfl) fun _ _ => rfl
theorem EncodeHead.rolDir (o : Byte) : EncodeHead.Statement (.rolDir o) :=
  of_fixed _ _ (fun _ _ => rfl) fun _ _ => rfl
theorem EncodeHead.andDirLong (o : Byte) : EncodeHead.Statement (.andDirLong o) :=
  of_fixed _ _ (fun _ _ => rfl) fun _ _ => rfl
theorem EncodeHead.plp : EncodeHead.Statement (.plp) :=
  of_fixed _ _ (fun _ _ => rfl) fun _ _ => rfl
theorem EncodeHead.andImm (v : Word) : EncodeHead.Statement (.andImm v) :=
  of_immM _ v _ (fun _ _ => rfl) rfl
theorem EncodeHead.rolAcc : EncodeHead.Statement (.rolAcc) :=
  of_fixed _ _ (fun _ _ => rfl) fun _ _ => rfl
theorem EncodeHead.pld : EncodeHead.Statement (.pld) :=
  of_fixed _ _ (fun _ _ => rfl) fun _ _ => rfl
theorem EncodeHead.bitAbs (a : Word) : EncodeHead.Statement (.bitAbs a) :=
  of_fixed _ _ (fun _ _ => rfl) fun _ _ => rfl
theorem EncodeHead.andAbs (a : Word) : EncodeHead.Statement (.andAbs a) :=
  of_fixed _ _ (fun _ _ => rfl) fun _ _ => rfl
theorem EncodeHead.rolAbs (a : Word) : EncodeHead.Statement (.rolAbs a) :=
  of_fixed _ _ (fun _ _ => rfl) fun _ _ => rfl
theorem EncodeHead.andLong (l : Addr) : EncodeHead.Statement (.andLong l) :=
  of_fixed _ _ (fun _ _ => rfl) fun _ _ => rfl
theorem EncodeHead.bmi (r : Byte) : EncodeHead.Statement (.bmi r) :=
  of_fixed _ _ (fun _ _ => rfl) fun _ _ => rfl
theorem EncodeHead.andDirIndY (o : Byte) : EncodeHead.Statement (.andDirIndY o) :=
  of_fixed _ _ (fun _ _ => rfl) fun _ _ => rfl
theorem EncodeHead.andDirInd (o : Byte) : EncodeHead.Statement (.andDirInd o) :=
  of_fixed _ _ (fun _ _ => rfl) fun _ _ => rfl
theorem EncodeHead.andStkIndY (o : Byte) : EncodeHead.Statement (.andStkIndY o) :=
  of_fixed _ _ (fun _ _ => rfl) fun _ _ => rfl
theorem EncodeHead.bitDirX (o : Byte) : EncodeHead.Statement (.bitDirX o) :=
  of_fixed _ _ (fun _ _ => rfl) fun _ _ => rfl
theorem EncodeHead.andDirX (o : Byte) : EncodeHead.Statement (.andDirX o) :=
  of_fixed _ _ (fun _ _ => rfl) fun _ _ => rfl
theorem EncodeHead.rolDirX (o : Byte) : EncodeHead.Statement (.rolDirX o) :=
  of_fixed _ _ (fun _ _ => rfl) fun _ _ => rfl
theorem EncodeHead.andDirLongY (o : Byte) : EncodeHead.Statement (.andDirLongY o) :=
  of_fixed _ _ (fun _ _ => rfl) fun _ _ => rfl
theorem EncodeHead.sec : EncodeHead.Statement (.sec) :=
  of_fixed _ _ (fun _ _ => rfl) fun _ _ => rfl
theorem EncodeHead.andAbsY (a : Word) : EncodeHead.Statement (.andAbsY a) :=
  of_fixed _ _ (fun _ _ => rfl) fun _ _ => rfl
theorem EncodeHead.decAcc : EncodeHead.Statement (.decAcc) :=
  of_fixed _ _ (fun _ _ => rfl) fun _ _ => rfl
theorem EncodeHead.tsc : EncodeHead.Statement (.tsc) :=
  of_fixed _ _ (fun _ _ => rfl) fun _ _ => rfl
theorem EncodeHead.bitAbsX (a : Word) : EncodeHead.Statement (.bitAbsX a) :=
  of_fixed _ _ (fun _ _ => rfl) fun _ _ => rfl
theorem EncodeHead.andAbsX (a : Word) : EncodeHead.Statement (.andAbsX a) :=
  of_fixed _ _ (fun _ _ => rfl) fun _ _ => rfl
theorem EncodeHead.rolAbsX (a : Word) : EncodeHead.Statement (.rolAbsX a) :=
  of_fixed _ _ (fun _ _ => rfl) fun _ _ => rfl
theorem EncodeHead.andLongX (l : Addr) : EncodeHead.Statement (.andLongX l) :=
  of_fixed _ _ (fun _ _ => rfl) fun _ _ => rfl
theorem EncodeHead.rti : EncodeHead.Statement (.rti) :=
  of_fixed _ _ (fun _ _ => rfl) fun _ _ => rfl
theorem EncodeHead.eorDirXInd (o : Byte) : EncodeHead.Statement (.eorDirXInd o) :=
  of_fixed _ _ (fun _ _ => rfl) fun _ _ => rfl
theorem EncodeHead.wdm (sig : Byte) : EncodeHead.Statement (.wdm sig) :=
  of_fixed _ _ (fun _ _ => rfl) fun _ _ => rfl
theorem EncodeHead.eorStk (o : Byte) : EncodeHead.Statement (.eorStk o) :=
  of_fixed _ _ (fun _ _ => rfl) fun _ _ => rfl
theorem EncodeHead.mvp (dst : Byte) (src : Byte) : EncodeHead.Statement (.mvp dst src) :=
  of_fixed _ _ (fun _ _ => rfl) fun _ _ => rfl
theorem EncodeHead.eorDir (o : Byte) : EncodeHead.Statement (.eorDir o) :=
  of_fixed _ _ (fun _ _ => rfl) fun _ _ => rfl
theorem EncodeHead.lsrDir (o : Byte) : EncodeHead.Statement (.lsrDir o) :=
  of_fixed _ _ (fun _ _ => rfl) fun _ _ => rfl
theorem EncodeHead.eorDirLong (o : Byte) : EncodeHead.Statement (.eorDirLong o) :=
  of_fixed _ _ (fun _ _ => rfl) fun _ _ => rfl
theorem EncodeHead.pha : EncodeHead.Statement (.pha) :=
  of_fixed _ _ (fun _ _ => rfl) fun _ _ => rfl
theorem EncodeHead.eorImm (v : Word) : EncodeHead.Statement (.eorImm v) :=
  of_immM _ v _ (fun _ _ => rfl) rfl
theorem EncodeHead.lsrAcc : EncodeHead.Statement (.lsrAcc) :=
  of_fixed _ _ (fun _ _ => rfl) fun _ _ => rfl
theorem EncodeHead.phk : EncodeHead.Statement (.phk) :=
  of_fixed _ _ (fun _ _ => rfl) fun _ _ => rfl
theorem EncodeHead.jmpAbs (a : Word) : EncodeHead.Statement (.jmpAbs a) :=
  of_fixed _ _ (fun _ _ => rfl) fun _ _ => rfl
theorem EncodeHead.eorAbs (a : Word) : EncodeHead.Statement (.eorAbs a) :=
  of_fixed _ _ (fun _ _ => rfl) fun _ _ => rfl
theorem EncodeHead.lsrAbs (a : Word) : EncodeHead.Statement (.lsrAbs a) :=
  of_fixed _ _ (fun _ _ => rfl) fun _ _ => rfl
theorem EncodeHead.eorLong (l : Addr) : EncodeHead.Statement (.eorLong l) :=
  of_fixed _ _ (fun _ _ => rfl) fun _ _ => rfl
theorem EncodeHead.bvc (r : Byte) : EncodeHead.Statement (.bvc r) :=
  of_fixed _ _ (fun _ _ => rfl) fun _ _ => rfl
theorem EncodeHead.eorDirIndY (o : Byte) : EncodeHead.Statement (.eorDirIndY o) :=
  of_fixed _ _ (fun _ _ => rfl) fun _ _ => rfl
theorem EncodeHead.eorDirInd (o : Byte) : EncodeHead.Statement (.eorDirInd o) :=
  of_fixed _ _ (fun _ _ => rfl) fun _ _ => rfl
theorem EncodeHead.eorStkIndY (o : Byte) : EncodeHead.Statement (.eorStkIndY o) :=
  of_fixed _ _ (fun _ _ => rfl) fun _ _ => rfl
theorem EncodeHead.mvn (dst : Byte) (src : Byte) : EncodeHead.Statement (.mvn dst src) :=
  of_fixed _ _ (fun _ _ => rfl) fun _ _ => rfl
theorem EncodeHead.eorDirX (o : Byte) : EncodeHead.Statement (.eorDirX o) :=
  of_fixed _ _ (fun _ _ => rfl) fun _ _ => rfl
theorem EncodeHead.lsrDirX (o : Byte) : EncodeHead.Statement (.lsrDirX o) :=
  of_fixed _ _ (fun _ _ => rfl) fun _ _ => rfl
theorem EncodeHead.eorDirLongY (o : Byte) : EncodeHead.Statement (.eorDirLongY o) :=
  of_fixed _ _ (fun _ _ => rfl) fun _ _ => rfl
theorem EncodeHead.cli : EncodeHead.Statement (.cli) :=
  of_fixed _ _ (fun _ _ => rfl) fun _ _ => rfl
theorem EncodeHead.eorAbsY (a : Word) : EncodeHead.Statement (.eorAbsY a) :=
  of_fixed _ _ (fun _ _ => rfl) fun _ _ => rfl
theorem EncodeHead.phy : EncodeHead.Statement (.phy) :=
  of_fixed _ _ (fun _ _ => rfl) fun _ _ => rfl
theorem EncodeHead.tcd : EncodeHead.Statement (.tcd) :=
  of_fixed _ _ (fun _ _ => rfl) fun _ _ => rfl
theorem EncodeHead.jmlLong (l : Addr) : EncodeHead.Statement (.jmlLong l) :=
  of_fixed _ _ (fun _ _ => rfl) fun _ _ => rfl
theorem EncodeHead.eorAbsX (a : Word) : EncodeHead.Statement (.eorAbsX a) :=
  of_fixed _ _ (fun _ _ => rfl) fun _ _ => rfl
theorem EncodeHead.lsrAbsX (a : Word) : EncodeHead.Statement (.lsrAbsX a) :=
  of_fixed _ _ (fun _ _ => rfl) fun _ _ => rfl
theorem EncodeHead.eorLongX (l : Addr) : EncodeHead.Statement (.eorLongX l) :=
  of_fixed _ _ (fun _ _ => rfl) fun _ _ => rfl
theorem EncodeHead.rts : EncodeHead.Statement (.rts) :=
  of_fixed _ _ (fun _ _ => rfl) fun _ _ => rfl
theorem EncodeHead.adcDirXInd (o : Byte) : EncodeHead.Statement (.adcDirXInd o) :=
  of_fixed _ _ (fun _ _ => rfl) fun _ _ => rfl
theorem EncodeHead.per (r : Word) : EncodeHead.Statement (.per r) :=
  of_fixed _ _ (fun _ _ => rfl) fun _ _ => rfl
theorem EncodeHead.adcStk (o : Byte) : EncodeHead.Statement (.adcStk o) :=
  of_fixed _ _ (fun _ _ => rfl) fun _ _ => rfl
theorem EncodeHead.stzDir (o : Byte) : EncodeHead.Statement (.stzDir o) :=
  of_fixed _ _ (fun _ _ => rfl) fun _ _ => rfl
theorem EncodeHead.adcDir (o : Byte) : EncodeHead.Statement (.adcDir o) :=
  of_fixed _ _ (fun _ _ => rfl) fun _ _ => rfl
theorem EncodeHead.rorDir (o : Byte) : EncodeHead.Statement (.rorDir o) :=
  of_fixed _ _ (fun _ _ => rfl) fun _ _ => rfl
theorem EncodeHead.adcDirLong (o : Byte) : EncodeHead.Statement (.adcDirLong o) :=
  of_fixed _ _ (fun _ _ => rfl) fun _ _ => rfl
theorem EncodeHead.pla : EncodeHead.Statement (.pla) :=
  of_fixed _ _ (fun _ _ => rfl) fun _ _ => rfl
theorem EncodeHead.adcImm (v : Word) : EncodeHead.Statement (.adcImm v) :=
  of_immM _ v _ (fun _ _ => rfl) rfl
theorem EncodeHead.rorAcc : EncodeHead.Statement (.rorAcc) :=
  of_fixed _ _ (fun _ _ => rfl) fun _ _ => rfl
theorem EncodeHead.rtl : EncodeHead.Statement (.rtl) :=
  of_fixed _ _ (fun _ _ => rfl) fun _ _ => rfl
theorem EncodeHead.jmpAbsInd (a : Word) : EncodeHead.Statement (.jmpAbsInd a) :=
  of_fixed _ _ (fun _ _ => rfl) fun _ _ => rfl
theorem EncodeHead.adcAbs (a : Word) : EncodeHead.Statement (.adcAbs a) :=
  of_fixed _ _ (fun _ _ => rfl) fun _ _ => rfl
theorem EncodeHead.rorAbs (a : Word) : EncodeHead.Statement (.rorAbs a) :=
  of_fixed _ _ (fun _ _ => rfl) fun _ _ => rfl
theorem EncodeHead.adcLong (l : Addr) : EncodeHead.Statement (.adcLong l) :=
  of_fixed _ _ (fun _ _ => rfl) fun _ _ => rfl
theorem EncodeHead.bvs (r : Byte) : EncodeHead.Statement (.bvs r) :=
  of_fixed _ _ (fun _ _ => rfl) fun _ _ => rfl
theorem EncodeHead.adcDirIndY (o : Byte) : EncodeHead.Statement (.adcDirIndY o) :=
  of_fixed _ _ (fun _ _ => rfl) fun _ _ => rfl
theorem EncodeHead.adcDirInd (o : Byte) : EncodeHead.Statement (.adcDirInd o) :=
  of_fixed _ _ (fun _ _ => rfl) fun _ _ => rfl
theorem EncodeHead.adcStkIndY (o : Byte) : EncodeHead.Statement (.adcStkIndY o) :=
  of_fixed _ _ (fun _ _ => rfl) fun _ _ => rfl
theorem EncodeHead.stzDirX (o : Byte) : EncodeHead.Statement (.stzDirX o) :=
  of_fixed _ _ (fun _ _ => rfl) fun _ _ => rfl
theorem EncodeHead.adcDirX (o : Byte) : EncodeHead.Statement (.adcDirX o) :=
  of_fixed _ _ (fun _ _ => rfl) fun _ _ => rfl
theorem EncodeHead.rorDirX (o : Byte) : EncodeHead.Statement (.rorDirX o) :=
  of_fixed _ _ (fun _ _ => rfl) fun _ _ => rfl
theorem EncodeHead.adcDirLongY (o : Byte) : EncodeHead.Statement (.adcDirLongY o) :=
  of_fixed _ _ (fun _ _ => rfl) fun _ _ => rfl
theorem EncodeHead.sei : EncodeHead.Statement (.sei) :=
  of_fixed _ _ (fun _ _ => rfl) fun _ _ => rfl
theorem EncodeHead.adcAbsY (a : Word) : EncodeHead.Statement (.adcAbsY a) :=
  of_fixed _ _ (fun _ _ => rfl) fun _ _ => rfl
theorem EncodeHead.ply : EncodeHead.Statement (.ply) :=
  of_fixed _ _ (fun _ _ => rfl) fun _ _ => rfl
theorem EncodeHead.tdc : EncodeHead.Statement (.tdc) :=
  of_fixed _ _ (fun _ _ => rfl) fun _ _ => rfl
theorem EncodeHead.jmpAbsXInd (a : Word) : EncodeHead.Statement (.jmpAbsXInd a) :=
  of_fixed _ _ (fun _ _ => rfl) fun _ _ => rfl
theorem EncodeHead.adcAbsX (a : Word) : EncodeHead.Statement (.adcAbsX a) :=
  of_fixed _ _ (fun _ _ => rfl) fun _ _ => rfl
theorem EncodeHead.rorAbsX (a : Word) : EncodeHead.Statement (.rorAbsX a) :=
  of_fixed _ _ (fun _ _ => rfl) fun _ _ => rfl
theorem EncodeHead.adcLongX (l : Addr) : EncodeHead.Statement (.adcLongX l) :=
  of_fixed _ _ (fun _ _ => rfl) fun _ _ => rfl
theorem EncodeHead.bra (r : Byte) : EncodeHead.Statement (.bra r) :=
  of_fixed _ _ (fun _ _ => rfl) fun _ _ => rfl
theorem EncodeHead.staDirXInd (o : Byte) : EncodeHead.Statement (.staDirXInd o) :=
  of_fixed _ _ (fun _ _ => rfl) fun _ _ => rfl
theorem EncodeHead.brl (r : Word) : EncodeHead.Statement (.brl r) :=
  of_fixed _ _ (fun _ _ => rfl) fun _ _ => rfl
theorem EncodeHead.staStk (o : Byte) : EncodeHead.Statement (.staStk o) :=
  of_fixed _ _ (fun _ _ => rfl) fun _ _ => rfl
theorem EncodeHead.styDir (o : Byte) : EncodeHead.Statement (.styDir o) :=
  of_fixed _ _ (fun _ _ => rfl) fun _ _ => rfl
theorem EncodeHead.staDir (o : Byte) : EncodeHead.Statement (.staDir o) :=
  of_fixed _ _ (fun _ _ => rfl) fun _ _ => rfl
theorem EncodeHead.stxDir (o : Byte) : EncodeHead.Statement (.stxDir o) :=
  of_fixed _ _ (fun _ _ => rfl) fun _ _ => rfl
theorem EncodeHead.staDirLong (o : Byte) : EncodeHead.Statement (.staDirLong o) :=
  of_fixed _ _ (fun _ _ => rfl) fun _ _ => rfl
theorem EncodeHead.dey : EncodeHead.Statement (.dey) :=
  of_fixed _ _ (fun _ _ => rfl) fun _ _ => rfl
theorem EncodeHead.bitImm (v : Word) : EncodeHead.Statement (.bitImm v) :=
  of_immM _ v _ (fun _ _ => rfl) rfl
theorem EncodeHead.txa : EncodeHead.Statement (.txa) :=
  of_fixed _ _ (fun _ _ => rfl) fun _ _ => rfl
theorem EncodeHead.phb : EncodeHead.Statement (.phb) :=
  of_fixed _ _ (fun _ _ => rfl) fun _ _ => rfl
theorem EncodeHead.styAbs (a : Word) : EncodeHead.Statement (.styAbs a) :=
  of_fixed _ _ (fun _ _ => rfl) fun _ _ => rfl
theorem EncodeHead.staAbs (a : Word) : EncodeHead.Statement (.staAbs a) :=
  of_fixed _ _ (fun _ _ => rfl) fun _ _ => rfl
theorem EncodeHead.stxAbs (a : Word) : EncodeHead.Statement (.stxAbs a) :=
  of_fixed _ _ (fun _ _ => rfl) fun _ _ => rfl
theorem EncodeHead.staLong (l : Addr) : EncodeHead.Statement (.staLong l) :=
  of_fixed _ _ (fun _ _ => rfl) fun _ _ => rfl
theorem EncodeHead.bcc (r : Byte) : EncodeHead.Statement (.bcc r) :=
  of_fixed _ _ (fun _ _ => rfl) fun _ _ => rfl
theorem EncodeHead.staDirIndY (o : Byte) : EncodeHead.Statement (.staDirIndY o) :=
  of_fixed _ _ (fun _ _ => rfl) fun _ _ => rfl
theorem EncodeHead.staDirInd (o : Byte) : EncodeHead.Statement (.staDirInd o) :=
  of_fixed _ _ (fun _ _ => rfl) fun _ _ => rfl
theorem EncodeHead.staStkIndY (o : Byte) : EncodeHead.Statement (.staStkIndY o) :=
  of_fixed _ _ (fun _ _ => rfl) fun _ _ => rfl
theorem EncodeHead.styDirX (o : Byte) : EncodeHead.Statement (.styDirX o) :=
  of_fixed _ _ (fun _ _ => rfl) fun _ _ => rfl
theorem EncodeHead.staDirX (o : Byte) : EncodeHead.Statement (.staDirX o) :=
  of_fixed _ _ (fun _ _ => rfl) fun _ _ => rfl
theorem EncodeHead.stxDirY (o : Byte) : EncodeHead.Statement (.stxDirY o) :=
  of_fixed _ _ (fun _ _ => rfl) fun _ _ => rfl
theorem EncodeHead.staDirLongY (o : Byte) : EncodeHead.Statement (.staDirLongY o) :=
  of_fixed _ _ (fun _ _ => rfl) fun _ _ => rfl
theorem EncodeHead.tya : EncodeHead.Statement (.tya) :=
  of_fixed _ _ (fun _ _ => rfl) fun _ _ => rfl
theorem EncodeHead.staAbsY (a : Word) : EncodeHead.Statement (.staAbsY a) :=
  of_fixed _ _ (fun _ _ => rfl) fun _ _ => rfl
theorem EncodeHead.txs : EncodeHead.Statement (.txs) :=
  of_fixed _ _ (fun _ _ => rfl) fun _ _ => rfl
theorem EncodeHead.txy : EncodeHead.Statement (.txy) :=
  of_fixed _ _ (fun _ _ => rfl) fun _ _ => rfl
theorem EncodeHead.stzAbs (a : Word) : EncodeHead.Statement (.stzAbs a) :=
  of_fixed _ _ (fun _ _ => rfl) fun _ _ => rfl
theorem EncodeHead.staAbsX (a : Word) : EncodeHead.Statement (.staAbsX a) :=
  of_fixed _ _ (fun _ _ => rfl) fun _ _ => rfl
theorem EncodeHead.stzAbsX (a : Word) : EncodeHead.Statement (.stzAbsX a) :=
  of_fixed _ _ (fun _ _ => rfl) fun _ _ => rfl
theorem EncodeHead.staLongX (l : Addr) : EncodeHead.Statement (.staLongX l) :=
  of_fixed _ _ (fun _ _ => rfl) fun _ _ => rfl
theorem EncodeHead.ldyImm (v : Word) : EncodeHead.Statement (.ldyImm v) :=
  of_immX _ v _ (fun _ _ => rfl) rfl
theorem EncodeHead.ldaDirXInd (o : Byte) : EncodeHead.Statement (.ldaDirXInd o) :=
  of_fixed _ _ (fun _ _ => rfl) fun _ _ => rfl
theorem EncodeHead.ldxImm (v : Word) : EncodeHead.Statement (.ldxImm v) :=
  of_immX _ v _ (fun _ _ => rfl) rfl
theorem EncodeHead.ldaStk (o : Byte) : EncodeHead.Statement (.ldaStk o) :=
  of_fixed _ _ (fun _ _ => rfl) fun _ _ => rfl
theorem EncodeHead.ldyDir (o : Byte) : EncodeHead.Statement (.ldyDir o) :=
  of_fixed _ _ (fun _ _ => rfl) fun _ _ => rfl
theorem EncodeHead.ldaDir (o : Byte) : EncodeHead.Statement (.ldaDir o) :=
  of_fixed _ _ (fun _ _ => rfl) fun _ _ => rfl
theorem EncodeHead.ldxDir (o : Byte) : EncodeHead.Statement (.ldxDir o) :=
  of_fixed _ _ (fun _ _ => rfl) fun _ _ => rfl
theorem EncodeHead.ldaDirLong (o : Byte) : EncodeHead.Statement (.ldaDirLong o) :=
  of_fixed _ _ (fun _ _ => rfl) fun _ _ => rfl
theorem EncodeHead.tay : EncodeHead.Statement (.tay) :=
  of_fixed _ _ (fun _ _ => rfl) fun _ _ => rfl
theorem EncodeHead.ldaImm (v : Word) : EncodeHead.Statement (.ldaImm v) :=
  of_immM _ v _ (fun _ _ => rfl) rfl
theorem EncodeHead.tax : EncodeHead.Statement (.tax) :=
  of_fixed _ _ (fun _ _ => rfl) fun _ _ => rfl
theorem EncodeHead.plb : EncodeHead.Statement (.plb) :=
  of_fixed _ _ (fun _ _ => rfl) fun _ _ => rfl
theorem EncodeHead.ldyAbs (a : Word) : EncodeHead.Statement (.ldyAbs a) :=
  of_fixed _ _ (fun _ _ => rfl) fun _ _ => rfl
theorem EncodeHead.ldaAbs (a : Word) : EncodeHead.Statement (.ldaAbs a) :=
  of_fixed _ _ (fun _ _ => rfl) fun _ _ => rfl
theorem EncodeHead.ldxAbs (a : Word) : EncodeHead.Statement (.ldxAbs a) :=
  of_fixed _ _ (fun _ _ => rfl) fun _ _ => rfl
theorem EncodeHead.ldaLong (l : Addr) : EncodeHead.Statement (.ldaLong l) :=
  of_fixed _ _ (fun _ _ => rfl) fun _ _ => rfl
theorem EncodeHead.bcs (r : Byte) : EncodeHead.Statement (.bcs r) :=
  of_fixed _ _ (fun _ _ => rfl) fun _ _ => rfl
theorem EncodeHead.ldaDirIndY (o : Byte) : EncodeHead.Statement (.ldaDirIndY o) :=
  of_fixed _ _ (fun _ _ => rfl) fun _ _ => rfl
theorem EncodeHead.ldaDirInd (o : Byte) : EncodeHead.Statement (.ldaDirInd o) :=
  of_fixed _ _ (fun _ _ => rfl) fun _ _ => rfl
theorem EncodeHead.ldaStkIndY (o : Byte) : EncodeHead.Statement (.ldaStkIndY o) :=
  of_fixed _ _ (fun _ _ => rfl) fun _ _ => rfl
theorem EncodeHead.ldyDirX (o : Byte) : EncodeHead.Statement (.ldyDirX o) :=
  of_fixed _ _ (fun _ _ => rfl) fun _ _ => rfl
theorem EncodeHead.ldaDirX (o : Byte) : EncodeHead.Statement (.ldaDirX o) :=
  of_fixed _ _ (fun _ _ => rfl) fun _ _ => rfl
theorem EncodeHead.ldxDirY (o : Byte) : EncodeHead.Statement (.ldxDirY o) :=
  of_fixed _ _ (fun _ _ => rfl) fun _ _ => rfl
theorem EncodeHead.ldaDirLongY (o : Byte) : EncodeHead.Statement (.ldaDirLongY o) :=
  of_fixed _ _ (fun _ _ => rfl) fun _ _ => rfl
theorem EncodeHead.clv : EncodeHead.Statement (.clv) :=
  of_fixed _ _ (fun _ _ => rfl) fun _ _ => rfl
theorem EncodeHead.ldaAbsY (a : Word) : EncodeHead.Statement (.ldaAbsY a) :=
  of_fixed _ _ (fun _ _ => rfl) fun _ _ => rfl
theorem EncodeHead.tsx : EncodeHead.Statement (.tsx) :=
  of_fixed _ _ (fun _ _ => rfl) fun _ _ => rfl
theorem EncodeHead.tyx : EncodeHead.Statement (.tyx) :=
  of_fixed _ _ (fun _ _ => rfl) fun _ _ => rfl
theorem EncodeHead.ldyAbsX (a : Word) : EncodeHead.Statement (.ldyAbsX a) :=
  of_fixed _ _ (fun _ _ => rfl) fun _ _ => rfl
theorem EncodeHead.ldaAbsX (a : Word) : EncodeHead.Statement (.ldaAbsX a) :=
  of_fixed _ _ (fun _ _ => rfl) fun _ _ => rfl
theorem EncodeHead.ldxAbsY (a : Word) : EncodeHead.Statement (.ldxAbsY a) :=
  of_fixed _ _ (fun _ _ => rfl) fun _ _ => rfl
theorem EncodeHead.ldaLongX (l : Addr) : EncodeHead.Statement (.ldaLongX l) :=
  of_fixed _ _ (fun _ _ => rfl) fun _ _ => rfl
theorem EncodeHead.cpyImm (v : Word) : EncodeHead.Statement (.cpyImm v) :=
  of_immX _ v _ (fun _ _ => rfl) rfl
theorem EncodeHead.cmpDirXInd (o : Byte) : EncodeHead.Statement (.cmpDirXInd o) :=
  of_fixed _ _ (fun _ _ => rfl) fun _ _ => rfl
theorem EncodeHead.rep (mask : Byte) : EncodeHead.Statement (.rep mask) :=
  of_fixed _ _ (fun _ _ => rfl) fun _ _ => rfl
theorem EncodeHead.cmpStk (o : Byte) : EncodeHead.Statement (.cmpStk o) :=
  of_fixed _ _ (fun _ _ => rfl) fun _ _ => rfl
theorem EncodeHead.cpyDir (o : Byte) : EncodeHead.Statement (.cpyDir o) :=
  of_fixed _ _ (fun _ _ => rfl) fun _ _ => rfl
theorem EncodeHead.cmpDir (o : Byte) : EncodeHead.Statement (.cmpDir o) :=
  of_fixed _ _ (fun _ _ => rfl) fun _ _ => rfl
theorem EncodeHead.decDir (o : Byte) : EncodeHead.Statement (.decDir o) :=
  of_fixed _ _ (fun _ _ => rfl) fun _ _ => rfl
theorem EncodeHead.cmpDirLong (o : Byte) : EncodeHead.Statement (.cmpDirLong o) :=
  of_fixed _ _ (fun _ _ => rfl) fun _ _ => rfl
theorem EncodeHead.iny : EncodeHead.Statement (.iny) :=
  of_fixed _ _ (fun _ _ => rfl) fun _ _ => rfl
theorem EncodeHead.cmpImm (v : Word) : EncodeHead.Statement (.cmpImm v) :=
  of_immM _ v _ (fun _ _ => rfl) rfl
theorem EncodeHead.dex : EncodeHead.Statement (.dex) :=
  of_fixed _ _ (fun _ _ => rfl) fun _ _ => rfl
theorem EncodeHead.wai : EncodeHead.Statement (.wai) :=
  of_fixed _ _ (fun _ _ => rfl) fun _ _ => rfl
theorem EncodeHead.cpyAbs (a : Word) : EncodeHead.Statement (.cpyAbs a) :=
  of_fixed _ _ (fun _ _ => rfl) fun _ _ => rfl
theorem EncodeHead.cmpAbs (a : Word) : EncodeHead.Statement (.cmpAbs a) :=
  of_fixed _ _ (fun _ _ => rfl) fun _ _ => rfl
theorem EncodeHead.decAbs (a : Word) : EncodeHead.Statement (.decAbs a) :=
  of_fixed _ _ (fun _ _ => rfl) fun _ _ => rfl
theorem EncodeHead.cmpLong (l : Addr) : EncodeHead.Statement (.cmpLong l) :=
  of_fixed _ _ (fun _ _ => rfl) fun _ _ => rfl
theorem EncodeHead.bne (r : Byte) : EncodeHead.Statement (.bne r) :=
  of_fixed _ _ (fun _ _ => rfl) fun _ _ => rfl
theorem EncodeHead.cmpDirIndY (o : Byte) : EncodeHead.Statement (.cmpDirIndY o) :=
  of_fixed _ _ (fun _ _ => rfl) fun _ _ => rfl
theorem EncodeHead.cmpDirInd (o : Byte) : EncodeHead.Statement (.cmpDirInd o) :=
  of_fixed _ _ (fun _ _ => rfl) fun _ _ => rfl
theorem EncodeHead.cmpStkIndY (o : Byte) : EncodeHead.Statement (.cmpStkIndY o) :=
  of_fixed _ _ (fun _ _ => rfl) fun _ _ => rfl
theorem EncodeHead.pei (o : Byte) : EncodeHead.Statement (.pei o) :=
  of_fixed _ _ (fun _ _ => rfl) fun _ _ => rfl
theorem EncodeHead.cmpDirX (o : Byte) : EncodeHead.Statement (.cmpDirX o) :=
  of_fixed _ _ (fun _ _ => rfl) fun _ _ => rfl
theorem EncodeHead.decDirX (o : Byte) : EncodeHead.Statement (.decDirX o) :=
  of_fixed _ _ (fun _ _ => rfl) fun _ _ => rfl
theorem EncodeHead.cmpDirLongY (o : Byte) : EncodeHead.Statement (.cmpDirLongY o) :=
  of_fixed _ _ (fun _ _ => rfl) fun _ _ => rfl
theorem EncodeHead.cld : EncodeHead.Statement (.cld) :=
  of_fixed _ _ (fun _ _ => rfl) fun _ _ => rfl
theorem EncodeHead.cmpAbsY (a : Word) : EncodeHead.Statement (.cmpAbsY a) :=
  of_fixed _ _ (fun _ _ => rfl) fun _ _ => rfl
theorem EncodeHead.phx : EncodeHead.Statement (.phx) :=
  of_fixed _ _ (fun _ _ => rfl) fun _ _ => rfl
theorem EncodeHead.stp : EncodeHead.Statement (.stp) :=
  of_fixed _ _ (fun _ _ => rfl) fun _ _ => rfl
theorem EncodeHead.jmlAbsLong (a : Word) : EncodeHead.Statement (.jmlAbsLong a) :=
  of_fixed _ _ (fun _ _ => rfl) fun _ _ => rfl
theorem EncodeHead.cmpAbsX (a : Word) : EncodeHead.Statement (.cmpAbsX a) :=
  of_fixed _ _ (fun _ _ => rfl) fun _ _ => rfl
theorem EncodeHead.decAbsX (a : Word) : EncodeHead.Statement (.decAbsX a) :=
  of_fixed _ _ (fun _ _ => rfl) fun _ _ => rfl
theorem EncodeHead.cmpLongX (l : Addr) : EncodeHead.Statement (.cmpLongX l) :=
  of_fixed _ _ (fun _ _ => rfl) fun _ _ => rfl
theorem EncodeHead.cpxImm (v : Word) : EncodeHead.Statement (.cpxImm v) :=
  of_immX _ v _ (fun _ _ => rfl) rfl
theorem EncodeHead.sbcDirXInd (o : Byte) : EncodeHead.Statement (.sbcDirXInd o) :=
  of_fixed _ _ (fun _ _ => rfl) fun _ _ => rfl
theorem EncodeHead.sep (mask : Byte) : EncodeHead.Statement (.sep mask) :=
  of_fixed _ _ (fun _ _ => rfl) fun _ _ => rfl
theorem EncodeHead.sbcStk (o : Byte) : EncodeHead.Statement (.sbcStk o) :=
  of_fixed _ _ (fun _ _ => rfl) fun _ _ => rfl
theorem EncodeHead.cpxDir (o : Byte) : EncodeHead.Statement (.cpxDir o) :=
  of_fixed _ _ (fun _ _ => rfl) fun _ _ => rfl
theorem EncodeHead.sbcDir (o : Byte) : EncodeHead.Statement (.sbcDir o) :=
  of_fixed _ _ (fun _ _ => rfl) fun _ _ => rfl
theorem EncodeHead.incDir (o : Byte) : EncodeHead.Statement (.incDir o) :=
  of_fixed _ _ (fun _ _ => rfl) fun _ _ => rfl
theorem EncodeHead.sbcDirLong (o : Byte) : EncodeHead.Statement (.sbcDirLong o) :=
  of_fixed _ _ (fun _ _ => rfl) fun _ _ => rfl
theorem EncodeHead.inx : EncodeHead.Statement (.inx) :=
  of_fixed _ _ (fun _ _ => rfl) fun _ _ => rfl
theorem EncodeHead.sbcImm (v : Word) : EncodeHead.Statement (.sbcImm v) :=
  of_immM _ v _ (fun _ _ => rfl) rfl
theorem EncodeHead.nop : EncodeHead.Statement (.nop) :=
  of_fixed _ _ (fun _ _ => rfl) fun _ _ => rfl
theorem EncodeHead.xba : EncodeHead.Statement (.xba) :=
  of_fixed _ _ (fun _ _ => rfl) fun _ _ => rfl
theorem EncodeHead.cpxAbs (a : Word) : EncodeHead.Statement (.cpxAbs a) :=
  of_fixed _ _ (fun _ _ => rfl) fun _ _ => rfl
theorem EncodeHead.sbcAbs (a : Word) : EncodeHead.Statement (.sbcAbs a) :=
  of_fixed _ _ (fun _ _ => rfl) fun _ _ => rfl
theorem EncodeHead.incAbs (a : Word) : EncodeHead.Statement (.incAbs a) :=
  of_fixed _ _ (fun _ _ => rfl) fun _ _ => rfl
theorem EncodeHead.sbcLong (l : Addr) : EncodeHead.Statement (.sbcLong l) :=
  of_fixed _ _ (fun _ _ => rfl) fun _ _ => rfl
theorem EncodeHead.beq (r : Byte) : EncodeHead.Statement (.beq r) :=
  of_fixed _ _ (fun _ _ => rfl) fun _ _ => rfl
theorem EncodeHead.sbcDirIndY (o : Byte) : EncodeHead.Statement (.sbcDirIndY o) :=
  of_fixed _ _ (fun _ _ => rfl) fun _ _ => rfl
theorem EncodeHead.sbcDirInd (o : Byte) : EncodeHead.Statement (.sbcDirInd o) :=
  of_fixed _ _ (fun _ _ => rfl) fun _ _ => rfl
theorem EncodeHead.sbcStkIndY (o : Byte) : EncodeHead.Statement (.sbcStkIndY o) :=
  of_fixed _ _ (fun _ _ => rfl) fun _ _ => rfl
theorem EncodeHead.pea (v : Word) : EncodeHead.Statement (.pea v) :=
  of_fixed _ _ (fun _ _ => rfl) fun _ _ => rfl
theorem EncodeHead.sbcDirX (o : Byte) : EncodeHead.Statement (.sbcDirX o) :=
  of_fixed _ _ (fun _ _ => rfl) fun _ _ => rfl
theorem EncodeHead.incDirX (o : Byte) : EncodeHead.Statement (.incDirX o) :=
  of_fixed _ _ (fun _ _ => rfl) fun _ _ => rfl
theorem EncodeHead.sbcDirLongY (o : Byte) : EncodeHead.Statement (.sbcDirLongY o) :=
  of_fixed _ _ (fun _ _ => rfl) fun _ _ => rfl
theorem EncodeHead.sed : EncodeHead.Statement (.sed) :=
  of_fixed _ _ (fun _ _ => rfl) fun _ _ => rfl
theorem EncodeHead.sbcAbsY (a : Word) : EncodeHead.Statement (.sbcAbsY a) :=
  of_fixed _ _ (fun _ _ => rfl) fun _ _ => rfl
theorem EncodeHead.plx : EncodeHead.Statement (.plx) :=
  of_fixed _ _ (fun _ _ => rfl) fun _ _ => rfl
theorem EncodeHead.xce : EncodeHead.Statement (.xce) :=
  of_fixed _ _ (fun _ _ => rfl) fun _ _ => rfl
theorem EncodeHead.jsrAbsXInd (a : Word) : EncodeHead.Statement (.jsrAbsXInd a) :=
  of_fixed _ _ (fun _ _ => rfl) fun _ _ => rfl
theorem EncodeHead.sbcAbsX (a : Word) : EncodeHead.Statement (.sbcAbsX a) :=
  of_fixed _ _ (fun _ _ => rfl) fun _ _ => rfl
theorem EncodeHead.incAbsX (a : Word) : EncodeHead.Statement (.incAbsX a) :=
  of_fixed _ _ (fun _ _ => rfl) fun _ _ => rfl
theorem EncodeHead.sbcLongX (l : Addr) : EncodeHead.Statement (.sbcLongX l) :=
  of_fixed _ _ (fun _ _ => rfl) fun _ _ => rfl

end Sys2Proof.Laws
end

