-- ==== Sys2Proof/Laws/Step.lean ====
section
/-! SUPPORT. What a step can do: every step is a reset, an idle step, a wake, an interrupt entry or an instruction. -/

namespace Sys2Proof.Machine

/-- An undisturbed boundary only uses up the inputs of the step. -/
theorem latchInputs_of_undisturbed {s : State} (h : Undisturbed s) :
    latchInputs s = { s with inputs := s.inputs.tail } := by
  obtain ⟨_, _, hn, hne, ha, hae, _, hso⟩ := h
  simp [latchInputs, hn, hne, ha, hae, hso]

theorem firstPending_eq_none {pending : Source → Bool} (s : State) (h : ∀ src, pending src = false) :
    firstPending pending s = none := by
  unfold firstPending
  rw [List.find?_eq_none]
  intro src _
  simp [h src]

theorem plan_eq (s : State) :
    plan s =
      if (inputsNow s).reset = true then .done (resetEntry (latchInputs s))
      else
        match s.run with
        | .stopped => .done (latchInputs s)
        | .waiting => planWaiting (inputsNow s).irq (latchInputs s)
        | .running => planRunning (inputsNow s).irq (latchInputs s) := rfl

/-- An undisturbed step executes. -/
theorem plan_of_undisturbed {s : State} (h : Undisturbed s) :
    plan s = .execute { s with inputs := s.inputs.tail } := by
  have hl := latchInputs_of_undisturbed h
  obtain ⟨hr, hreset, hn, _, ha, _, hi, _⟩ := h
  have hnone : firstPending (pendingRunning (inputsNow s).irq (latchInputs s)) (latchInputs s) = none := by
    refine firstPending_eq_none _ fun src => ?_
    cases src <;> simp [pendingRunning, hl, hn, ha]
    intro hirq
    exact hi hirq
  rw [plan_eq, hreset, hr]
  unfold planRunning
  rw [hnone, hl]
  simp [hr]

/-- The sources a boundary can answer with are hardware sources. -/
theorem firstPending_some {pending : Source → Bool} {s : State} {src : Source}
    (h : firstPending pending s = some src) : pending src = true :=
  List.find?_some h

/-- Everything a plan can be. -/
theorem plan_cases (s : State) :
    ((inputsNow s).reset = true ∧ plan s = .done (resetEntry (latchInputs s))) ∨
    ((inputsNow s).reset = false ∧ s.run = .stopped ∧ plan s = .done (latchInputs s)) ∨
    ((inputsNow s).reset = false ∧ s.run = .waiting ∧
      ((firstPending (pendingWaiting (inputsNow s).irq (latchInputs s)) (latchInputs s) = none ∧
          plan s = .done { latchInputs s with abortPending := false }) ∨
        (firstPending (pendingWaiting (inputsNow s).irq (latchInputs s)) (latchInputs s) = some .irq ∧
          getFlag (latchInputs s).p .i = true ∧ plan s = .done { latchInputs s with run := .running }) ∨
        ∃ src, firstPending (pendingWaiting (inputsNow s).irq (latchInputs s)) (latchInputs s) = some src ∧
          ¬(src = .irq ∧ getFlag (latchInputs s).p .i = true) ∧
          plan s = .done (interruptEntry src s.pc { latchInputs s with run := .running }))) ∨
    ((inputsNow s).reset = false ∧ s.run = .running ∧
      ((firstPending (pendingRunning (inputsNow s).irq (latchInputs s)) (latchInputs s) = none ∧
          plan s = .execute (latchInputs s)) ∨
        ∃ src, firstPending (pendingRunning (inputsNow s).irq (latchInputs s)) (latchInputs s) = some src ∧
          plan s = .done (interruptEntry src s.pc (latchInputs s)))) := by
  cases hreset : (inputsNow s).reset
  · right
    cases hr : s.run
    · right; right
      refine ⟨rfl, rfl, ?_⟩
      rw [plan_eq, hreset, hr]
      unfold planRunning
      cases hf : firstPending (pendingRunning (inputsNow s).irq (latchInputs s)) (latchInputs s) with
      | none => left; simp
      | some src => right; exact ⟨src, rfl, by simp⟩
    · right; left
      refine ⟨rfl, rfl, ?_⟩
      rw [plan_eq, hreset, hr]
      unfold planWaiting
      cases hf : firstPending (pendingWaiting (inputsNow s).irq (latchInputs s)) (latchInputs s) with
      | none => left; simp
      | some src =>
        right
        by_cases hi : src = .irq ∧ getFlag (latchInputs s).p .i = true
        · left; obtain ⟨rfl, hi⟩ := hi; simp [hi]
        · right; exact ⟨src, rfl, hi, by simp [hi]⟩
    · left
      refine ⟨rfl, rfl, ?_⟩
      rw [plan_eq, hreset, hr]
      simp
  · left
    rw [plan_eq, hreset]
    simp

theorem step_of_done {s t : State} (h : plan s = .done t) : step s = .next t := by
  unfold step; rw [h]

theorem step_of_execute {s t : State} (h : plan s = .execute t) : step s = exec (fetchInstr t) t := by
  unfold step; rw [h]

/-- A stopped step without reset latches its inputs and does nothing else. -/
theorem step_of_stopped {s : State} (hr : s.run = .stopped) (hreset : (inputsNow s).reset = false) :
    step s = .next (latchInputs s) :=
  step_of_done (by rw [plan_eq, hreset, hr]; simp)

/-- A run goes on from the state that its first step answers. -/
theorem core_run_succ {k : Nat} {s t : State} (h : step s = .next t) :
    Sys2Proof.core.run (k + 1) s = Sys2Proof.core.run k t := by
  have h' : Sys2Proof.core.step s = .next t := h
  simp only [Host.Core.run, h']

end Sys2Proof.Machine
end

