-- ==== Sys2Proof/Machine/Assembler.lean ====
section
/-! DEFINITION. The assembler syntax of spec/30_encoding.md section 5 (R94 to R102): source lines, operand spellings,
aliases, byte selection, address sizes, width directives and relative operands, as a function from a line to the bytes it
stands for, and the text of an instruction. No meaning uses this file. What the syntax leaves open is in log 35. -/

namespace Sys2Proof.Machine

/-- The 92 mnemonics (R96). -/
inductive Mnemonic where
  | adc | and | asl | bcc | bcs | beq | bit | bmi | bne | bpl | bra | brk | brl | bvc | bvs | clc | cld | cli
  | clv | cmp | cop | cpx | cpy | dec | dex | dey | eor | inc | inx | iny | jml | jmp | jsl | jsr | lda | ldx
  | ldy | lsr | mvn | mvp | nop | ora | pea | pei | per | pha | phb | phd | phk | php | phx | phy | pla | plb
  | pld | plp | plx | ply | rep | rol | ror | rti | rtl | rts | sbc | sec | sed | sei | sep | sta | stp | stx
  | sty | stz | tax | tay | tcd | tcs | tdc | trb | tsb | tsc | tsx | txa | txs | txy | tya | tyx | wai | wdm
  | xba | xce
  deriving DecidableEq, Repr

/-- The spelling of each mnemonic (R96). -/
def Mnemonic.text : Mnemonic → String
  | .adc => "ADC" | .and => "AND" | .asl => "ASL" | .bcc => "BCC" | .bcs => "BCS" | .beq => "BEQ"
  | .bit => "BIT" | .bmi => "BMI" | .bne => "BNE" | .bpl => "BPL" | .bra => "BRA" | .brk => "BRK"
  | .brl => "BRL" | .bvc => "BVC" | .bvs => "BVS" | .clc => "CLC" | .cld => "CLD" | .cli => "CLI"
  | .clv => "CLV" | .cmp => "CMP" | .cop => "COP" | .cpx => "CPX" | .cpy => "CPY" | .dec => "DEC"
  | .dex => "DEX" | .dey => "DEY" | .eor => "EOR" | .inc => "INC" | .inx => "INX" | .iny => "INY"
  | .jml => "JML" | .jmp => "JMP" | .jsl => "JSL" | .jsr => "JSR" | .lda => "LDA" | .ldx => "LDX"
  | .ldy => "LDY" | .lsr => "LSR" | .mvn => "MVN" | .mvp => "MVP" | .nop => "NOP" | .ora => "ORA"
  | .pea => "PEA" | .pei => "PEI" | .per => "PER" | .pha => "PHA" | .phb => "PHB" | .phd => "PHD"
  | .phk => "PHK" | .php => "PHP" | .phx => "PHX" | .phy => "PHY" | .pla => "PLA" | .plb => "PLB"
  | .pld => "PLD" | .plp => "PLP" | .plx => "PLX" | .ply => "PLY" | .rep => "REP" | .rol => "ROL"
  | .ror => "ROR" | .rti => "RTI" | .rtl => "RTL" | .rts => "RTS" | .sbc => "SBC" | .sec => "SEC"
  | .sed => "SED" | .sei => "SEI" | .sep => "SEP" | .sta => "STA" | .stp => "STP" | .stx => "STX"
  | .sty => "STY" | .stz => "STZ" | .tax => "TAX" | .tay => "TAY" | .tcd => "TCD" | .tcs => "TCS"
  | .tdc => "TDC" | .trb => "TRB" | .tsb => "TSB" | .tsc => "TSC" | .tsx => "TSX" | .txa => "TXA"
  | .txs => "TXS" | .txy => "TXY" | .tya => "TYA" | .tyx => "TYX" | .wai => "WAI" | .wdm => "WDM"
  | .xba => "XBA" | .xce => "XCE"

/-- All of them (R96). -/
def mnemonics : List Mnemonic := [
  .adc, .and, .asl, .bcc, .bcs, .beq, .bit, .bmi, .bne, .bpl, .bra, .brk, .brl, .bvc, .bvs, .clc, .cld, .cli,
  .clv, .cmp, .cop, .cpx, .cpy, .dec, .dex, .dey, .eor, .inc, .inx, .iny, .jml, .jmp, .jsl, .jsr, .lda, .ldx,
  .ldy, .lsr, .mvn, .mvp, .nop, .ora, .pea, .pei, .per, .pha, .phb, .phd, .phk, .php, .phx, .phy, .pla, .plb,
  .pld, .plp, .plx, .ply, .rep, .rol, .ror, .rti, .rtl, .rts, .sbc, .sec, .sed, .sei, .sep, .sta, .stp, .stx,
  .sty, .stz, .tax, .tay, .tcd, .tcs, .tdc, .trb, .tsb, .tsc, .tsx, .txa, .txs, .txy, .tya, .tyx, .wai, .wdm,
  .xba, .xce]

/-- The alternate mnemonics that stand for one standard mnemonic (R96). DEA and INA are in `accumulatorAliases`; CMA has
no opcode behind it. -/
def aliases : List (String × Mnemonic) := [
  ("BLT", .bcc), ("BGE", .bcs), ("TAD", .tcd), ("TAS", .tcs), ("TDA", .tdc), ("TSA", .tsc), ("SWA", .xba)]

/-- The alternate mnemonics for an operation on the accumulator, which take no operand (R96). -/
def accumulatorAliases : List (String × Mnemonic) := [("DEA", .dec), ("INA", .inc)]

/-- The formats of R82: an addressing mode with its operand bytes. -/
inductive Format where
  | imp | acc | imm8 | immM | immX | imm16 | rel8 | rel16
  | dir | dirX | dirY | dirInd | dirIndY | dirXInd | dirLong | dirLongY | stk | stkIndY
  | abs | absX | absY | absInd | absXInd | absLong | long | longX | banks
  deriving DecidableEq, Repr

/-- The widths that an assembler is told of (R99): one byte for an accumulator or index immediate, else two. -/
structure Widths where
  acc8 : Bool
  index8 : Bool
  deriving DecidableEq, Repr

/-- The number of operand bytes of a format (R82, R83). -/
def Format.bytes (w : Widths) : Format → Nat
  | .imp | .acc => 0
  | .imm8 | .rel8 | .dir | .dirX | .dirY | .dirInd | .dirIndY | .dirXInd | .dirLong | .dirLongY | .stk | .stkIndY => 1
  | .immM => if w.acc8 then 1 else 2
  | .immX => if w.index8 then 1 else 2
  | .imm16 | .rel16 | .abs | .absX | .absY | .absInd | .absXInd | .absLong | .banks => 2
  | .long | .longX => 3

/-- Opcodes $00 to $0F: mnemonic and addressing mode (R85). -/
def matrixRow0 : List (Mnemonic × Format) := [
  (.brk, .imm8), (.ora, .dirXInd), (.cop, .imm8), (.ora, .stk), (.tsb, .dir), (.ora, .dir), (.asl, .dir),
  (.ora, .dirLong), (.php, .imp), (.ora, .immM), (.asl, .acc), (.phd, .imp), (.tsb, .abs), (.ora, .abs),
  (.asl, .abs), (.ora, .long)]

/-- Opcodes $10 to $1F: mnemonic and addressing mode (R85). -/
def matrixRow1 : List (Mnemonic × Format) := [
  (.bpl, .rel8), (.ora, .dirIndY), (.ora, .dirInd), (.ora, .stkIndY), (.trb, .dir), (.ora, .dirX),
  (.asl, .dirX), (.ora, .dirLongY), (.clc, .imp), (.ora, .absY), (.inc, .acc), (.tcs, .imp), (.trb, .abs),
  (.ora, .absX), (.asl, .absX), (.ora, .longX)]

/-- Opcodes $20 to $2F: mnemonic and addressing mode (R85). -/
def matrixRow2 : List (Mnemonic × Format) := [
  (.jsr, .abs), (.and, .dirXInd), (.jsl, .long), (.and, .stk), (.bit, .dir), (.and, .dir), (.rol, .dir),
  (.and, .dirLong), (.plp, .imp), (.and, .immM), (.rol, .acc), (.pld, .imp), (.bit, .abs), (.and, .abs),
  (.rol, .abs), (.and, .long)]

/-- Opcodes $30 to $3F: mnemonic and addressing mode (R85). -/
def matrixRow3 : List (Mnemonic × Format) := [
  (.bmi, .rel8), (.and, .dirIndY), (.and, .dirInd), (.and, .stkIndY), (.bit, .dirX), (.and, .dirX),
  (.rol, .dirX), (.and, .dirLongY), (.sec, .imp), (.and, .absY), (.dec, .acc), (.tsc, .imp), (.bit, .absX),
  (.and, .absX), (.rol, .absX), (.and, .longX)]

/-- Opcodes $40 to $4F: mnemonic and addressing mode (R85). -/
def matrixRow4 : List (Mnemonic × Format) := [
  (.rti, .imp), (.eor, .dirXInd), (.wdm, .imm8), (.eor, .stk), (.mvp, .banks), (.eor, .dir), (.lsr, .dir),
  (.eor, .dirLong), (.pha, .imp), (.eor, .immM), (.lsr, .acc), (.phk, .imp), (.jmp, .abs), (.eor, .abs),
  (.lsr, .abs), (.eor, .long)]

/-- Opcodes $50 to $5F: mnemonic and addressing mode (R85). -/
def matrixRow5 : List (Mnemonic × Format) := [
  (.bvc, .rel8), (.eor, .dirIndY), (.eor, .dirInd), (.eor, .stkIndY), (.mvn, .banks), (.eor, .dirX),
  (.lsr, .dirX), (.eor, .dirLongY), (.cli, .imp), (.eor, .absY), (.phy, .imp), (.tcd, .imp), (.jml, .long),
  (.eor, .absX), (.lsr, .absX), (.eor, .longX)]

/-- Opcodes $60 to $6F: mnemonic and addressing mode (R85). -/
def matrixRow6 : List (Mnemonic × Format) := [
  (.rts, .imp), (.adc, .dirXInd), (.per, .rel16), (.adc, .stk), (.stz, .dir), (.adc, .dir), (.ror, .dir),
  (.adc, .dirLong), (.pla, .imp), (.adc, .immM), (.ror, .acc), (.rtl, .imp), (.jmp, .absInd), (.adc, .abs),
  (.ror, .abs), (.adc, .long)]

/-- Opcodes $70 to $7F: mnemonic and addressing mode (R85). -/
def matrixRow7 : List (Mnemonic × Format) := [
  (.bvs, .rel8), (.adc, .dirIndY), (.adc, .dirInd), (.adc, .stkIndY), (.stz, .dirX), (.adc, .dirX),
  (.ror, .dirX), (.adc, .dirLongY), (.sei, .imp), (.adc, .absY), (.ply, .imp), (.tdc, .imp),
  (.jmp, .absXInd), (.adc, .absX), (.ror, .absX), (.adc, .longX)]

/-- Opcodes $80 to $8F: mnemonic and addressing mode (R85). -/
def matrixRow8 : List (Mnemonic × Format) := [
  (.bra, .rel8), (.sta, .dirXInd), (.brl, .rel16), (.sta, .stk), (.sty, .dir), (.sta, .dir), (.stx, .dir),
  (.sta, .dirLong), (.dey, .imp), (.bit, .immM), (.txa, .imp), (.phb, .imp), (.sty, .abs), (.sta, .abs),
  (.stx, .abs), (.sta, .long)]

/-- Opcodes $90 to $9F: mnemonic and addressing mode (R85). -/
def matrixRow9 : List (Mnemonic × Format) := [
  (.bcc, .rel8), (.sta, .dirIndY), (.sta, .dirInd), (.sta, .stkIndY), (.sty, .dirX), (.sta, .dirX),
  (.stx, .dirY), (.sta, .dirLongY), (.tya, .imp), (.sta, .absY), (.txs, .imp), (.txy, .imp), (.stz, .abs),
  (.sta, .absX), (.stz, .absX), (.sta, .longX)]

/-- Opcodes $A0 to $AF: mnemonic and addressing mode (R85). -/
def matrixRowA : List (Mnemonic × Format) := [
  (.ldy, .immX), (.lda, .dirXInd), (.ldx, .immX), (.lda, .stk), (.ldy, .dir), (.lda, .dir), (.ldx, .dir),
  (.lda, .dirLong), (.tay, .imp), (.lda, .immM), (.tax, .imp), (.plb, .imp), (.ldy, .abs), (.lda, .abs),
  (.ldx, .abs), (.lda, .long)]

/-- Opcodes $B0 to $BF: mnemonic and addressing mode (R85). -/
def matrixRowB : List (Mnemonic × Format) := [
  (.bcs, .rel8), (.lda, .dirIndY), (.lda, .dirInd), (.lda, .stkIndY), (.ldy, .dirX), (.lda, .dirX),
  (.ldx, .dirY), (.lda, .dirLongY), (.clv, .imp), (.lda, .absY), (.tsx, .imp), (.tyx, .imp), (.ldy, .absX),
  (.lda, .absX), (.ldx, .absY), (.lda, .longX)]

/-- Opcodes $C0 to $CF: mnemonic and addressing mode (R85). -/
def matrixRowC : List (Mnemonic × Format) := [
  (.cpy, .immX), (.cmp, .dirXInd), (.rep, .imm8), (.cmp, .stk), (.cpy, .dir), (.cmp, .dir), (.dec, .dir),
  (.cmp, .dirLong), (.iny, .imp), (.cmp, .immM), (.dex, .imp), (.wai, .imp), (.cpy, .abs), (.cmp, .abs),
  (.dec, .abs), (.cmp, .long)]

/-- Opcodes $D0 to $DF: mnemonic and addressing mode (R85). -/
def matrixRowD : List (Mnemonic × Format) := [
  (.bne, .rel8), (.cmp, .dirIndY), (.cmp, .dirInd), (.cmp, .stkIndY), (.pei, .dir), (.cmp, .dirX),
  (.dec, .dirX), (.cmp, .dirLongY), (.cld, .imp), (.cmp, .absY), (.phx, .imp), (.stp, .imp),
  (.jml, .absLong), (.cmp, .absX), (.dec, .absX), (.cmp, .longX)]

/-- Opcodes $E0 to $EF: mnemonic and addressing mode (R85). -/
def matrixRowE : List (Mnemonic × Format) := [
  (.cpx, .immX), (.sbc, .dirXInd), (.sep, .imm8), (.sbc, .stk), (.cpx, .dir), (.sbc, .dir), (.inc, .dir),
  (.sbc, .dirLong), (.inx, .imp), (.sbc, .immM), (.nop, .imp), (.xba, .imp), (.cpx, .abs), (.sbc, .abs),
  (.inc, .abs), (.sbc, .long)]

/-- Opcodes $F0 to $FF: mnemonic and addressing mode (R85). -/
def matrixRowF : List (Mnemonic × Format) := [
  (.beq, .rel8), (.sbc, .dirIndY), (.sbc, .dirInd), (.sbc, .stkIndY), (.pea, .imm16), (.sbc, .dirX),
  (.inc, .dirX), (.sbc, .dirLongY), (.sed, .imp), (.sbc, .absY), (.plx, .imp), (.xce, .imp),
  (.jsr, .absXInd), (.sbc, .absX), (.inc, .absX), (.sbc, .longX)]

/-- The matrix of R85: the mnemonic and the addressing mode of every opcode. -/
def matrix : List (Mnemonic × Format) :=
  matrixRow0 ++ matrixRow1 ++ matrixRow2 ++ matrixRow3 ++ matrixRow4 ++ matrixRow5 ++ matrixRow6 ++ matrixRow7 ++
  matrixRow8 ++ matrixRow9 ++ matrixRowA ++ matrixRowB ++ matrixRowC ++ matrixRowD ++ matrixRowE ++ matrixRowF

/-- The opcode of a mnemonic in an addressing mode, where it has that mode (R85). -/
def opcodeFor (mn : Mnemonic) (f : Format) : Option Byte :=
  (matrix.findIdx? fun cell => decide (cell.2 = f) && decide (cell.1 = mn)).map (BitVec.ofNat 8)

/-- A mnemonic that has the implied mode only takes no operand (R95). -/
def takesOperand (mn : Mnemonic) : Bool := (opcodeFor mn .imp).isNone

/-- Why a line does not assemble. -/
inductive AsmError where
  /-- The line or its operand has not the form of R94 and R95. -/
  | badSyntax
  /-- The operation code is no mnemonic, alias or directive of R96 and R99. -/
  | unknownOperation
  /-- The operand uses a label that has no value. -/
  | unknownLabel
  /-- The mnemonic has no addressing mode of this spelling and size. -/
  | noSuchMode
  /-- A value that no operand of the mode can hold: a branch too far, a bank byte above $FF, an address outside 24 bits. -/
  | outOfRange
  deriving DecidableEq, Repr

/-! ## Constants, labels and sums (R94) -/

/-- A label with its value; an external label is assumed to be two bytes long (R98). -/
structure Symbol where
  name : String
  value : Nat
  external : Bool
  deriving DecidableEq, Repr

/-- The value of an operand expression; it is external when a label in it is. -/
structure AsmValue where
  number : Int
  external : Bool
  deriving DecidableEq, Repr

/-- The digit that a character is in base 10 or 16, in either case. -/
def digitOf (base : Nat) (c : Char) : Option Nat :=
  let n := c.toNat
  let d :=
    if 48 ≤ n ∧ n ≤ 57 then n - 48
    else if 65 ≤ n ∧ n ≤ 70 then n - 55
    else if 97 ≤ n ∧ n ≤ 102 then n - 87
    else base
  if d < base then some d else none

/-- The digits at the front of a text, and the text after them. -/
def readDigits (base : Nat) : Nat → List Char → Nat × List Char
  | acc, [] => (acc, [])
  | acc, c :: rest =>
    match digitOf base c with
    | some d => readDigits base (acc * base + d) rest
    | none => (acc, c :: rest)

/-- A number in base 10 or 16: at least one digit. -/
def readNumber (base : Nat) (text : List Char) : Except AsmError (AsmValue × List Char) :=
  match text with
  | [] => .error .badSyntax
  | c :: _ =>
    if (digitOf base c).isSome then
      .ok ({ number := ((readDigits base 0 text).1 : Nat), external := false }, (readDigits base 0 text).2)
    else .error .badSyntax

/-- A character of a label after its first: alphanumeric (R94), or the underscore of the sources' examples (log 35). -/
def isLabelChar (c : Char) : Bool := c.isAlphanum || c = '_'

/-- A label: an alphabetic character and label characters after it (R94). -/
def isLabel : List Char → Bool
  | [] => false
  | c :: rest => c.isAlpha && rest.all isLabelChar

/-- A term: a decimal constant, a hexadecimal constant with a dollar sign, or a label (R94). -/
def readTerm (symbols : List Symbol) : List Char → Except AsmError (AsmValue × List Char)
  | [] => .error .badSyntax
  | '$' :: rest => readNumber 16 rest
  | c :: rest =>
    if c.isAlpha then
      let name := String.ofList (c :: rest.takeWhile isLabelChar)
      match symbols.find? fun s => s.name == name with
      | some s => .ok ({ number := s.value, external := s.external }, rest.dropWhile isLabelChar)
      | none => .error .unknownLabel
    else readNumber 10 (c :: rest)

/-- Additions and subtractions after a first term, from left to right (R94). The first argument bounds their number. -/
def readSum (symbols : List Symbol) : Nat → AsmValue → List Char → Except AsmError (AsmValue × List Char)
  | fuel + 1, v, '+' :: rest => do
    let (u, after) ← readTerm symbols rest
    readSum symbols fuel { number := v.number + u.number, external := v.external || u.external } after
  | fuel + 1, v, '-' :: rest => do
    let (u, after) ← readTerm symbols rest
    readSum symbols fuel { number := v.number - u.number, external := v.external || u.external } after
  | _, v, text => .ok (v, text)

/-- An expression: terms with additions and subtractions (R94). -/
def readExpr (symbols : List Symbol) (text : List Char) : Except AsmError (AsmValue × List Char) := do
  let (v, rest) ← readTerm symbols text
  readSum symbols text.length v rest

/-! ## Operands (R95, R97, R98) -/

/-- Which byte of a value an immediate begins with (R97). -/
inductive ByteSelect where
  | low
  | high
  | bank
  deriving DecidableEq, Repr

/-- The number of bits below the selected byte (R97). -/
def ByteSelect.shift : ByteSelect → Nat
  | .low => 0
  | .high => 8
  | .bank => 16

/-- The number whose low bytes an immediate has: the value from its selected byte up (R97). -/
def ByteSelect.part (select : ByteSelect) (v : AsmValue) : Int := v.number / 2 ^ select.shift

/-- The number of bytes of an address (R98). -/
inductive AddrSize where
  | one
  | two
  | three
  deriving DecidableEq, Repr

/-- How an address operand is written around its address (R95). -/
inductive Spelling where
  | plain
  | x
  | y
  | s
  | ind
  | indY
  | indX
  | stkIndY
  | far
  | farY
  deriving DecidableEq, Repr

/-- An operand as it is written (R95). -/
inductive AsmOperand where
  | none
  | acc
  | imm (select : ByteSelect) (v : AsmValue)
  | addr (spelling : Spelling) (force : Option AddrSize) (v : AsmValue)
  | banks (src dst : Byte)
  deriving DecidableEq, Repr

/-- The byte selection at the front of an immediate (R97). -/
def readSelect : List Char → ByteSelect × List Char
  | '<' :: rest => (.low, rest)
  | '>' :: rest => (.high, rest)
  | '^' :: rest => (.bank, rest)
  | text => (.low, text)

/-- The prefix that forces an address size (R98). -/
def readForce : List Char → Option AddrSize × List Char
  | '<' :: rest => (some .one, rest)
  | '|' :: rest => (some .two, rest)
  | '!' :: rest => (some .two, rest)
  | '>' :: rest => (some .three, rest)
  | text => (.none, text)

/-- What follows the address when it is not in brackets. -/
def plainSpelling (suffix : List Char) : Option Spelling :=
  match suffix.map Char.toUpper with
  | [] => some .plain
  | [',', 'X'] => some .x
  | [',', 'Y'] => some .y
  | [',', 'S'] => some .s
  | _ => none

/-- What follows the address after a round bracket. -/
def indirectSpelling (suffix : List Char) : Option Spelling :=
  match suffix.map Char.toUpper with
  | [')'] => some .ind
  | [')', ',', 'Y'] => some .indY
  | [',', 'X', ')'] => some .indX
  | [',', 'S', ')', ',', 'Y'] => some .stkIndY
  | _ => none

/-- What follows the address after a square bracket. -/
def farSpelling (suffix : List Char) : Option Spelling :=
  match suffix.map Char.toUpper with
  | [']'] => some .far
  | [']', ',', 'Y'] => some .farY
  | _ => none

/-- An address operand: an optional size prefix, an expression and what follows it. -/
def readAddr (symbols : List Symbol) (spellingOf : List Char → Option Spelling) (text : List Char) :
    Except AsmError AsmOperand := do
  let (v, suffix) ← readExpr symbols (readForce text).2
  match spellingOf suffix with
  | some spelling => .ok (.addr spelling (readForce text).1 v)
  | none => .error .badSyntax

/-- The immediate after a number sign: its byte selection and its value, and the text after it (R97). -/
def readImmediate (symbols : List Symbol) (text : List Char) :
    Except AsmError ((ByteSelect × AsmValue) × List Char) := do
  let (v, rest) ← readExpr symbols (readSelect text).2
  .ok (((readSelect text).1, v), rest)

/-- An immediate operand (R95, R97). -/
def readImm (symbols : List Symbol) (text : List Char) : Except AsmError AsmOperand := do
  let ((select, v), rest) ← readImmediate symbols text
  if rest.isEmpty then .ok (.imm select v) else .error .badSyntax

/-- One bank of a block move, and the text after it (R95): an immediate, of which it is the one-byte result (R97), or a
number of one byte without a number sign. -/
def readBank (symbols : List Symbol) (text : List Char) : Except AsmError (Byte × List Char) :=
  match text with
  | '#' :: immediate => do
    let ((select, v), rest) ← readImmediate symbols immediate
    .ok (BitVec.ofInt 8 (select.part v), rest)
  | _ => do
    let (v, rest) ← readExpr symbols text
    if 0 ≤ v.number ∧ v.number < 256 then .ok (BitVec.ofInt 8 v.number, rest) else .error .outOfRange

/-- The two banks of a block move, source first (R89). -/
def readBanks (symbols : List Symbol) (text : List Char) : Except AsmError AsmOperand := do
  let (src, rest) ← readBank symbols text
  match rest with
  | ',' :: second => do
    let (dst, after) ← readBank symbols second
    if after.isEmpty then .ok (.banks src dst) else .error .badSyntax
  | _ => .error .badSyntax

/-- The operand field (R95). An operand `A` is the accumulator. -/
def readOperand (symbols : List Symbol) (mn : Mnemonic) (text : List Char) : Except AsmError AsmOperand :=
  if text.isEmpty then .ok .none
  else if mn = .mvn ∨ mn = .mvp then readBanks symbols text
  else
    match text with
    | '#' :: rest => readImm symbols rest
    | '(' :: rest => readAddr symbols indirectSpelling rest
    | '[' :: rest => readAddr symbols farSpelling rest
    | _ => if text.map Char.toUpper = ['A'] then .ok .acc else readAddr symbols plainSpelling text

/-! ## Choosing the addressing mode (R95, R96, R98) -/

/-- The addressing mode of a spelling with an address of a size (R95). -/
def Spelling.format : Spelling → AddrSize → Option Format
  | .plain, .one => some .dir
  | .plain, .two => some .abs
  | .plain, .three => some .long
  | .x, .one => some .dirX
  | .x, .two => some .absX
  | .x, .three => some .longX
  | .y, .one => some .dirY
  | .y, .two => some .absY
  | .s, .one => some .stk
  | .ind, .one => some .dirInd
  | .ind, .two => some .absInd
  | .indY, .one => some .dirIndY
  | .indX, .one => some .dirXInd
  | .indX, .two => some .absXInd
  | .stkIndY, .one => some .stkIndY
  | .far, .one => some .dirLong
  | .far, .two => some .absLong
  | .farY, .one => some .dirLongY
  | _, _ => none

/-- The addressing mode that a mnemonic means by a spelling (R95). PEA is written as an absolute address and pushes it,
PEI as an indirection and pushes the datum; the pointer of JML may stand in round brackets. -/
def writtenFormat (mn : Mnemonic) (spelling : Spelling) (size : AddrSize) : Option Format :=
  match mn, spelling with
  | .pea, .plain => if size = .two then some .imm16 else none
  | .pei, .ind => if size = .one then some .dir else none
  | .pei, _ => none
  | .jml, .ind => Spelling.format .far size
  | _, _ => spelling.format size

/-- The mnemonic that JMP and JSR stand for with a long or square-bracketed operand (R96). -/
def longTwin : Mnemonic → Option Mnemonic
  | .jmp => some .jml
  | .jsr => some .jsl
  | _ => none

/-- The opcode and addressing mode of a mnemonic with an address of a size, if there is one. -/
def modeAt (mn : Mnemonic) (spelling : Spelling) (size : AddrSize) : Option (Byte × Format) := do
  let f ← writtenFormat mn spelling size
  match opcodeFor mn f with
  | some op => some (op, f)
  | none => do
    let twin ← longTwin mn
    let op ← opcodeFor twin f
    some (op, f)

/-- The size of an address that no prefix forces: by its value, two bytes when it is external (R98). -/
def naturalSize (v : AsmValue) : Option AddrSize :=
  if v.external then some .two
  else if v.number < 0 then none
  else if v.number < 0x100 then some .one
  else if v.number < 0x10000 then some .two
  else if v.number < 0x1000000 then some .three
  else none

/-- The sizes to try: a forced size alone; else the natural one, and the larger ones to which a short address is extended
when the instruction has no short mode (R98). The spec does not say whether a spelling that has one-byte modes only, as
`LDA (EXT),Y` or `STX EXT,Y`, is a context that makes an external address one byte. DESIGN CHOICE (log 35): it is not, one
byte is never tried, and the line has no mode unless a prefix forces it. -/
def sizesToTry (force : Option AddrSize) (v : AsmValue) : Except AsmError (List AddrSize) :=
  match force with
  | some size => .ok [size]
  | none =>
    match naturalSize v with
    | some .one => .ok [.one, .two, .three]
    | some .two => .ok [.two, .three]
    | some .three => .ok [.three]
    | none => .error .outOfRange

/-! ## The bytes of an instruction -/

/-- The low `n` bytes of a number, low first (R50); the rest is cut off (R97, R98). The spec does not say what a negative
number gives, which R94's subtraction can make (`LDA #0-1`). DESIGN CHOICE (log 35): its two's-complement bytes. -/
def numberBytes : Nat → Int → List Byte
  | 0, _ => []
  | n + 1, v => BitVec.ofInt 8 v :: numberBytes n (v / 256)

/-- The displacement of a branch or of PER to a target in the program bank, from the address of the next instruction
(R88, R100). A target of more than 16 bits must be in the bank of the instruction. -/
def displacement (f : Format) (at_ : Addr) (v : AsmValue) : Except AsmError (List Byte) :=
  let next : Int := (offsetOf at_).toNat + (if f = .rel8 then 2 else 3)
  let d : Int := (BitVec.ofInt 16 (v.number - next)).toInt
  if 0x10000 ≤ v.number ∧ v.number / 0x10000 ≠ (bankOf at_).toNat then .error .outOfRange
  else if v.number < 0 ∨ 0x1000000 ≤ v.number then .error .outOfRange
  else if f = .rel16 then .ok (numberBytes 2 d)
  else if -128 ≤ d ∧ d ≤ 127 then .ok (numberBytes 1 d)
  else .error .outOfRange

/-- The first of some formats that a mnemonic has. -/
def firstFormat (mn : Mnemonic) (formats : List Format) : Option (Byte × Format) :=
  formats.findSome? fun f => (opcodeFor mn f).map fun op => (op, f)

/-- The bytes of a mnemonic with an operand, at an address (R95 to R100). BRK may be written without its
signature byte, which then is whatever comes next, and WDM without its second byte, which then is $00 (log 35). -/
def assembleInstr (w : Widths) (at_ : Addr) (mn : Mnemonic) : AsmOperand → Except AsmError (List Byte)
  | .none =>
    match firstFormat mn [.imp, .acc] with
    | some (op, _) => .ok [op]
    | none =>
      match mn with
      | .brk => .ok [0x00]
      | .wdm => .ok [0x42, 0x00]
      | _ => .error .noSuchMode
  | .acc =>
    match opcodeFor mn .acc with
    | some op => .ok [op]
    | none => .error .noSuchMode
  | .imm select v =>
    match firstFormat mn [.imm8, .immM, .immX] with
    | some (op, f) => .ok (op :: numberBytes (f.bytes w) (select.part v))
    | none => .error .noSuchMode
  | .banks src dst =>
    match opcodeFor mn .banks with
    | some op => .ok [op, dst, src]
    | none => .error .noSuchMode
  | .addr spelling force v =>
    match firstFormat mn [.rel8, .rel16] with
    | some (op, f) =>
      if spelling = .plain ∧ force = none then do
        let d ← displacement f at_ v
        .ok (op :: d)
      else .error .noSuchMode
    | none => do
      let sizes ← sizesToTry force v
      match sizes.findSome? (modeAt mn spelling) with
      | some (op, f) => .ok (op :: numberBytes (f.bytes w) v.number)
      | none => .error .noSuchMode

/-! ## Lines (R94, R99) -/

/-- A blank between the fields of a line. -/
def isBlank (c : Char) : Bool := c = ' ' || c = '\t'

/-- A line in its fields (R94); the comment field is dropped. A line without an operation may hold a label. -/
inductive Line where
  | noOperation
  | operation (label : Option String) (op : String) (operand : List Char)
  deriving DecidableEq, Repr

/-- The operand field: up to a blank that does not follow a comma, or a semicolon. -/
def operandField : Bool → List Char → List Char
  | _, [] => []
  | afterComma, c :: rest =>
    if isBlank c then if afterComma then operandField true rest else []
    else if c = ';' then []
    else c :: operandField (c == ',') rest


/-- The label field: a label, with or without the colon of the sources' examples (log 35). -/
def readLabel (field : List Char) : Except AsmError (Option String) :=
  let name := if field.getLast? = some ':' then field.dropLast else field
  if field.isEmpty then .ok none
  else if isLabel name then .ok (some (String.ofList name))
  else .error .badSyntax

/-- A line divided into its fields (R94): the label begins in the first column, and the operation code is read in either
case. -/
def readLine (text : List Char) : Except AsmError Line :=
  match text, text.dropWhile isBlank with
  | '*' :: _, _ | _, [] | _, ';' :: _ => .ok .noOperation
  | _, _ => do
    let field := text.takeWhile fun c => !isBlank c
    let rest := (text.drop field.length).dropWhile isBlank
    let op := rest.takeWhile fun c => !isBlank c && c != ';'
    let label ← readLabel field
    if op.isEmpty then .ok .noOperation
    else
      .ok (.operation label (String.ofList (op.map Char.toUpper))
        (operandField false ((rest.drop op.length).dropWhile isBlank)))

/-- The width directives of the two toolchains that the sources name (R99). -/
def directives : List (String × (Widths → Widths)) := [
  (".AS", fun w => { w with acc8 := true }), (".AL", fun w => { w with acc8 := false }),
  (".XS", fun w => { w with index8 := true }), (".XL", fun w => { w with index8 := false }),
  (".A8", fun w => { w with acc8 := true }), (".A16", fun w => { w with acc8 := false }),
  (".I8", fun w => { w with index8 := true }), (".I16", fun w => { w with index8 := false })]

/-- What a list of spellings says of an operation code. -/
def lookUp {α : Type} (table : List (String × α)) (op : String) : Option α :=
  (table.find? fun row => row.1 == op).map (·.2)

/-- The mnemonic that an operation code spells, an alias included (R96). -/
def mnemonicOf (op : String) : Option Mnemonic :=
  match mnemonics.find? fun mn => mn.text == op with
  | some mn => some mn
  | none => lookUp aliases op

/-- One line at an address: the widths after it and the bytes it stands for (R94 to R100). R94 does not say how a comment
without a semicolon is told from an operand that may be absent (ASL, LSR, ROL, ROR, DEC, INC, BRK, WDM). DESIGN CHOICE
(log 35): text after such an operation code is its operand; it is a comment only where the mnemonic, or the alias DEA or
INA, takes no operand. -/
def assembleLine (w : Widths) (symbols : List Symbol) (at_ : Addr) (text : List Char) :
    Except AsmError (Widths × List Byte) := do
  match ← readLine text with
  | .noOperation => .ok (w, [])
  | .operation _ op operand =>
    match lookUp directives op with
    | some directive => .ok (directive w, [])
    | none =>
      match lookUp accumulatorAliases op with
      | some mn => do
        let bytes ← assembleInstr w at_ mn .acc
        .ok (w, bytes)
      | none =>
        match mnemonicOf op with
        | none => .error .unknownOperation
        | some mn => do
          let o ← readOperand symbols mn (if takesOperand mn then operand else [])
          let bytes ← assembleInstr w at_ mn o
          .ok (w, bytes)

/-- The lines of a program one after the other, inside one program bank (R81). -/
def assemble (symbols : List Symbol) : Widths → Addr → List String → Except AsmError (List Byte)
  | _, _, [] => .ok []
  | w, at_, line :: rest => do
    let (w', bytes) ← assembleLine w symbols at_ line.toList
    let more ← assemble symbols w' (bankAddr (bankOf at_) (offsetOf at_ + BitVec.ofNat 16 bytes.length)) rest
    .ok (bytes ++ more)

/-! ## The text of an instruction (R95) -/

/-- A hexadecimal digit. -/
def hexDigit (n : Nat) : Char := if n < 10 then Char.ofNat (48 + n) else Char.ofNat (55 + n)

/-- `digits` hexadecimal digits of a number, the most significant first. -/
def hexDigits : Nat → Nat → List Char
  | 0, _ => []
  | digits + 1, n => hexDigits digits (n / 16) ++ [hexDigit (n % 16)]

/-- A number with its dollar sign and two digits a byte. -/
def hexText (bytes n : Nat) : List Char := '$' :: hexDigits (2 * bytes) n

/-- A 16-bit address, with the prefix that keeps a short value from being read as a direct offset (R98). -/
def absText (n : Nat) : List Char := if n < 0x100 then '|' :: hexText 2 n else hexText 2 n

/-- A 24-bit address, with the prefix that keeps a short value from being read as a shorter address (R98). -/
def longText (n : Nat) : List Char := if n < 0x10000 then '>' :: hexText 3 n else hexText 3 n

/-- The operand in the quick reference's notation (R95): `n` is the number the operand bytes make, low byte first. A
relative operand is written as its target (R100), PEI's with round brackets, and block-move banks source first (R89). -/
def operandText (w : Widths) (at_ : Addr) (mn : Mnemonic) (f : Format) (n : Nat) : List Char :=
  let target (len : Nat) (d : Int) : List Char := hexText 2 (BitVec.ofInt 16 ((offsetOf at_).toNat + len + d)).toNat
  match f with
  | .imp | .acc => []
  | .imm8 | .immM | .immX => '#' :: hexText (f.bytes w) n
  | .imm16 => absText n
  | .rel8 => target 2 (BitVec.ofNat 8 n).toInt
  | .rel16 => target 3 n
  | .dir => if mn = .pei then '(' :: hexText 1 n ++ [')'] else hexText 1 n
  | .dirX => hexText 1 n ++ [',', 'X']
  | .dirY => hexText 1 n ++ [',', 'Y']
  | .dirInd => '(' :: hexText 1 n ++ [')']
  | .dirIndY => '(' :: hexText 1 n ++ [')', ',', 'Y']
  | .dirXInd => '(' :: hexText 1 n ++ [',', 'X', ')']
  | .dirLong => '[' :: hexText 1 n ++ [']']
  | .dirLongY => '[' :: hexText 1 n ++ [']', ',', 'Y']
  | .stk => hexText 1 n ++ [',', 'S']
  | .stkIndY => '(' :: hexText 1 n ++ [',', 'S', ')', ',', 'Y']
  | .abs => absText n
  | .absX => absText n ++ [',', 'X']
  | .absY => absText n ++ [',', 'Y']
  | .absInd => '(' :: absText n ++ [')']
  | .absXInd => '(' :: absText n ++ [',', 'X', ')']
  | .absLong => '[' :: absText n ++ [']']
  | .long => longText n
  | .longX => longText n ++ [',', 'X']
  | .banks => '#' :: hexText 1 (n / 256) ++ [',', '#'] ++ hexText 1 (n % 256)

/-- The number that bytes make, low byte first (R50, R87). -/
def bytesNumber : List Byte → Nat
  | [] => 0
  | b :: rest => b.toNat + 256 * bytesNumber rest

/-- The source line of the instruction that begins a list of bytes at an address, for known widths (R83, R95). -/
def listing (w : Widths) (at_ : Addr) (bytes : List Byte) : List Char :=
  match bytes with
  | [] => []
  | op :: rest =>
    match matrix[op.toNat]? with
    | none => []
    | some (mn, f) =>
      ' ' :: mn.text.toList ++ ' ' :: operandText w at_ mn f (bytesNumber (rest.take (f.bytes w)))

end Sys2Proof.Machine
end

