-- ==== Sys2Proof/Machine/Timing.lean ====
section
/-! DEFINITION. The cycle counts of spec/70_reset_and_hazards.md R361 and R362 (and 40_addressing_modes.md R139), as
functions of the instruction and the state before it. They are information: State has no clock and no rule depends on
them (R360, log 30). From where the page crossing of a branch is measured is log 36. -/

namespace Sys2Proof.Machine

/-- The six 0/1 variables of the cycle formulas (R361). -/
structure CycleVars where
  m : Nat
  x : Nat
  e : Nat
  w : Nat
  p : Nat
  t : Nat
  deriving DecidableEq, Repr

/-- The formulas of opcodes $00 to $0F (R362). -/
def cycleRow0 : List (CycleVars → Nat) := [
  fun v => 8 - v.e, fun v => 7 - v.m + v.w, fun v => 8 - v.e, fun v => 5 - v.m, fun v => 7 - 2 * v.m + v.w,
  fun v => 4 - v.m + v.w, fun v => 7 - 2 * v.m + v.w, fun v => 7 - v.m + v.w, fun _ => 3, fun v => 3 - v.m,
  fun _ => 2, fun _ => 4, fun v => 8 - 2 * v.m, fun v => 5 - v.m, fun v => 8 - 2 * v.m, fun v => 6 - v.m]

/-- The formulas of opcodes $10 to $1F (R362). -/
def cycleRow1 : List (CycleVars → Nat) := [
  fun v => 2 + v.t + v.t * v.e * v.p, fun v => 7 - v.m + v.w - v.x + v.x * v.p, fun v => 6 - v.m + v.w,
  fun v => 8 - v.m, fun v => 7 - 2 * v.m + v.w, fun v => 5 - v.m + v.w, fun v => 8 - 2 * v.m + v.w,
  fun v => 7 - v.m + v.w, fun _ => 2, fun v => 6 - v.m - v.x + v.x * v.p, fun _ => 2, fun _ => 2,
  fun v => 8 - 2 * v.m, fun v => 6 - v.m - v.x + v.x * v.p, fun v => 9 - 2 * v.m, fun v => 6 - v.m]

/-- The formulas of opcodes $20 to $2F (R362). -/
def cycleRow2 : List (CycleVars → Nat) := [
  fun _ => 6, fun v => 7 - v.m + v.w, fun _ => 8, fun v => 5 - v.m, fun v => 4 - v.m + v.w,
  fun v => 4 - v.m + v.w, fun v => 7 - 2 * v.m + v.w, fun v => 7 - v.m + v.w, fun _ => 4, fun v => 3 - v.m,
  fun _ => 2, fun _ => 5, fun v => 5 - v.m, fun v => 5 - v.m, fun v => 8 - 2 * v.m, fun v => 6 - v.m]

/-- The formulas of opcodes $30 to $3F (R362). -/
def cycleRow3 : List (CycleVars → Nat) := [
  fun v => 2 + v.t + v.t * v.e * v.p, fun v => 7 - v.m + v.w - v.x + v.x * v.p, fun v => 6 - v.m + v.w,
  fun v => 8 - v.m, fun v => 5 - v.m + v.w, fun v => 5 - v.m + v.w, fun v => 8 - 2 * v.m + v.w,
  fun v => 7 - v.m + v.w, fun _ => 2, fun v => 6 - v.m - v.x + v.x * v.p, fun _ => 2, fun _ => 2,
  fun v => 6 - v.m - v.x + v.x * v.p, fun v => 6 - v.m - v.x + v.x * v.p, fun v => 9 - 2 * v.m,
  fun v => 6 - v.m]

/-- The formulas of opcodes $40 to $4F (R362). -/
def cycleRow4 : List (CycleVars → Nat) := [
  fun v => 7 - v.e, fun v => 7 - v.m + v.w, fun _ => 2, fun v => 5 - v.m, fun _ => 7, fun v => 4 - v.m + v.w,
  fun v => 7 - 2 * v.m + v.w, fun v => 7 - v.m + v.w, fun v => 4 - v.m, fun v => 3 - v.m, fun _ => 2,
  fun _ => 3, fun _ => 3, fun v => 5 - v.m, fun v => 8 - 2 * v.m, fun v => 6 - v.m]

/-- The formulas of opcodes $50 to $5F (R362). -/
def cycleRow5 : List (CycleVars → Nat) := [
  fun v => 2 + v.t + v.t * v.e * v.p, fun v => 7 - v.m + v.w - v.x + v.x * v.p, fun v => 6 - v.m + v.w,
  fun v => 8 - v.m, fun _ => 7, fun v => 5 - v.m + v.w, fun v => 8 - 2 * v.m + v.w, fun v => 7 - v.m + v.w,
  fun _ => 2, fun v => 6 - v.m - v.x + v.x * v.p, fun v => 4 - v.x, fun _ => 2, fun _ => 4,
  fun v => 6 - v.m - v.x + v.x * v.p, fun v => 9 - 2 * v.m, fun v => 6 - v.m]

/-- The formulas of opcodes $60 to $6F (R362). -/
def cycleRow6 : List (CycleVars → Nat) := [
  fun _ => 6, fun v => 7 - v.m + v.w, fun _ => 6, fun v => 5 - v.m, fun v => 4 - v.m + v.w,
  fun v => 4 - v.m + v.w, fun v => 7 - 2 * v.m + v.w, fun v => 7 - v.m + v.w, fun v => 5 - v.m,
  fun v => 3 - v.m, fun _ => 2, fun _ => 6, fun _ => 5, fun v => 5 - v.m, fun v => 8 - 2 * v.m,
  fun v => 6 - v.m]

/-- The formulas of opcodes $70 to $7F (R362). -/
def cycleRow7 : List (CycleVars → Nat) := [
  fun v => 2 + v.t + v.t * v.e * v.p, fun v => 7 - v.m + v.w - v.x + v.x * v.p, fun v => 6 - v.m + v.w,
  fun v => 8 - v.m, fun v => 5 - v.m + v.w, fun v => 5 - v.m + v.w, fun v => 8 - 2 * v.m + v.w,
  fun v => 7 - v.m + v.w, fun _ => 2, fun v => 6 - v.m - v.x + v.x * v.p, fun v => 5 - v.x, fun _ => 2,
  fun _ => 6, fun v => 6 - v.m - v.x + v.x * v.p, fun v => 9 - 2 * v.m, fun v => 6 - v.m]

/-- The formulas of opcodes $80 to $8F (R362). -/
def cycleRow8 : List (CycleVars → Nat) := [
  fun v => 3 + v.e * v.p, fun v => 7 - v.m + v.w, fun _ => 4, fun v => 5 - v.m, fun v => 4 - v.x + v.w,
  fun v => 4 - v.m + v.w, fun v => 4 - v.x + v.w, fun v => 7 - v.m + v.w, fun _ => 2, fun v => 3 - v.m,
  fun _ => 2, fun _ => 3, fun v => 5 - v.x, fun v => 5 - v.m, fun v => 5 - v.x, fun v => 6 - v.m]

/-- The formulas of opcodes $90 to $9F (R362). -/
def cycleRow9 : List (CycleVars → Nat) := [
  fun v => 2 + v.t + v.t * v.e * v.p, fun v => 7 - v.m + v.w, fun v => 6 - v.m + v.w, fun v => 8 - v.m,
  fun v => 5 - v.x + v.w, fun v => 5 - v.m + v.w, fun v => 5 - v.x + v.w, fun v => 7 - v.m + v.w, fun _ => 2,
  fun v => 6 - v.m, fun _ => 2, fun _ => 2, fun v => 5 - v.m, fun v => 6 - v.m, fun v => 6 - v.m,
  fun v => 6 - v.m]

/-- The formulas of opcodes $A0 to $AF (R362). -/
def cycleRowA : List (CycleVars → Nat) := [
  fun v => 3 - v.x, fun v => 7 - v.m + v.w, fun v => 3 - v.x, fun v => 5 - v.m, fun v => 4 - v.x + v.w,
  fun v => 4 - v.m + v.w, fun v => 4 - v.x + v.w, fun v => 7 - v.m + v.w, fun _ => 2, fun v => 3 - v.m,
  fun _ => 2, fun _ => 4, fun v => 5 - v.x, fun v => 5 - v.m, fun v => 5 - v.x, fun v => 6 - v.m]

/-- The formulas of opcodes $B0 to $BF (R362). -/
def cycleRowB : List (CycleVars → Nat) := [
  fun v => 2 + v.t + v.t * v.e * v.p, fun v => 7 - v.m + v.w - v.x + v.x * v.p, fun v => 6 - v.m + v.w,
  fun v => 8 - v.m, fun v => 5 - v.x + v.w, fun v => 5 - v.m + v.w, fun v => 5 - v.x + v.w,
  fun v => 7 - v.m + v.w, fun _ => 2, fun v => 6 - v.m - v.x + v.x * v.p, fun _ => 2, fun _ => 2,
  fun v => 6 - 2 * v.x + v.x * v.p, fun v => 6 - v.m - v.x + v.x * v.p, fun v => 6 - 2 * v.x + v.x * v.p,
  fun v => 6 - v.m]

/-- The formulas of opcodes $C0 to $CF (R362). -/
def cycleRowC : List (CycleVars → Nat) := [
  fun v => 3 - v.x, fun v => 7 - v.m + v.w, fun _ => 3, fun v => 5 - v.m, fun v => 4 - v.x + v.w,
  fun v => 4 - v.m + v.w, fun v => 7 - 2 * v.m + v.w, fun v => 7 - v.m + v.w, fun _ => 2, fun v => 3 - v.m,
  fun _ => 2, fun _ => 3, fun v => 5 - v.x, fun v => 5 - v.m, fun v => 8 - 2 * v.m, fun v => 6 - v.m]

/-- The formulas of opcodes $D0 to $DF (R362). -/
def cycleRowD : List (CycleVars → Nat) := [
  fun v => 2 + v.t + v.t * v.e * v.p, fun v => 7 - v.m + v.w - v.x + v.x * v.p, fun v => 6 - v.m + v.w,
  fun v => 8 - v.m, fun v => 6 + v.w, fun v => 5 - v.m + v.w, fun v => 8 - 2 * v.m + v.w,
  fun v => 7 - v.m + v.w, fun _ => 2, fun v => 6 - v.m - v.x + v.x * v.p, fun v => 4 - v.x, fun _ => 3,
  fun _ => 6, fun v => 6 - v.m - v.x + v.x * v.p, fun v => 9 - 2 * v.m, fun v => 6 - v.m]

/-- The formulas of opcodes $E0 to $EF (R362). -/
def cycleRowE : List (CycleVars → Nat) := [
  fun v => 3 - v.x, fun v => 7 - v.m + v.w, fun _ => 3, fun v => 5 - v.m, fun v => 4 - v.x + v.w,
  fun v => 4 - v.m + v.w, fun v => 7 - 2 * v.m + v.w, fun v => 7 - v.m + v.w, fun _ => 2, fun v => 3 - v.m,
  fun _ => 2, fun _ => 3, fun v => 5 - v.x, fun v => 5 - v.m, fun v => 8 - 2 * v.m, fun v => 6 - v.m]

/-- The formulas of opcodes $F0 to $FF (R362). -/
def cycleRowF : List (CycleVars → Nat) := [
  fun v => 2 + v.t + v.t * v.e * v.p, fun v => 7 - v.m + v.w - v.x + v.x * v.p, fun v => 6 - v.m + v.w,
  fun v => 8 - v.m, fun _ => 5, fun v => 5 - v.m + v.w, fun v => 8 - 2 * v.m + v.w, fun v => 7 - v.m + v.w,
  fun _ => 2, fun v => 6 - v.m - v.x + v.x * v.p, fun v => 5 - v.x, fun _ => 2, fun _ => 8,
  fun v => 6 - v.m - v.x + v.x * v.p, fun v => 9 - 2 * v.m, fun v => 6 - v.m]

/-- The formulas of all opcodes (R362). -/
def cycleTable : List (CycleVars → Nat) :=
  cycleRow0 ++ cycleRow1 ++ cycleRow2 ++ cycleRow3 ++ cycleRow4 ++ cycleRow5 ++ cycleRow6 ++ cycleRow7 ++
  cycleRow8 ++ cycleRow9 ++ cycleRowA ++ cycleRowB ++ cycleRowC ++ cycleRowD ++ cycleRowE ++ cycleRowF

theorem cycleTable_length : cycleTable.length = 256 := by decide +kernel

/-- The formula of an opcode. -/
def cycleFormula (op : Byte) : CycleVars → Nat :=
  cycleTable[op.toNat]'(by rw [cycleTable_length]; exact op.isLt)

/-- The page of an address inside a bank (R46). -/
def pageOf (a : Word) : Byte := highByte a

/-- `(AAL + index[7:0]) > 255` (R139). -/
def indexCrossesPage (base index : Word) : Bool := decide (255 < (lowByte base).toNat + (lowByte index).toNat)

/-- A branch is taken across a page boundary (R361). The spec does not say from which address the crossing is measured.
PRESUMED (log 36, unsafe): the target's page against that of the next instruction, `PC + 2`, as the 6502 family has it,
and not against the page of the branch opcode. -/
def branchCrossesPage (s : State) (r : Byte) : Bool := pageOf (branchTarget s.pc r) != pageOf (s.pc + 2)

/-- The variables `p` and `t` of an instruction: page crossing and branch taken (R139, R361). -/
def pageAndTaken (i : Instr) (s : State) : Bool × Bool :=
  match i with
  | .bpl r => (branchCrossesPage s r, !getFlag s.p .n)
  | .oraDirIndY o => (indexCrossesPage (dpPointer s o.toNat) s.y, false)
  | .oraAbsY a => (indexCrossesPage a s.y, false)
  | .oraAbsX a => (indexCrossesPage a s.x, false)
  | .bmi r => (branchCrossesPage s r, getFlag s.p .n)
  | .andDirIndY o => (indexCrossesPage (dpPointer s o.toNat) s.y, false)
  | .andAbsY a => (indexCrossesPage a s.y, false)
  | .bitAbsX a => (indexCrossesPage a s.x, false)
  | .andAbsX a => (indexCrossesPage a s.x, false)
  | .bvc r => (branchCrossesPage s r, !getFlag s.p .v)
  | .eorDirIndY o => (indexCrossesPage (dpPointer s o.toNat) s.y, false)
  | .eorAbsY a => (indexCrossesPage a s.y, false)
  | .eorAbsX a => (indexCrossesPage a s.x, false)
  | .bvs r => (branchCrossesPage s r, getFlag s.p .v)
  | .adcDirIndY o => (indexCrossesPage (dpPointer s o.toNat) s.y, false)
  | .adcAbsY a => (indexCrossesPage a s.y, false)
  | .adcAbsX a => (indexCrossesPage a s.x, false)
  | .bra r => (branchCrossesPage s r, true)
  | .bcc r => (branchCrossesPage s r, !getFlag s.p .c)
  | .bcs r => (branchCrossesPage s r, getFlag s.p .c)
  | .ldaDirIndY o => (indexCrossesPage (dpPointer s o.toNat) s.y, false)
  | .ldaAbsY a => (indexCrossesPage a s.y, false)
  | .ldyAbsX a => (indexCrossesPage a s.x, false)
  | .ldaAbsX a => (indexCrossesPage a s.x, false)
  | .ldxAbsY a => (indexCrossesPage a s.y, false)
  | .bne r => (branchCrossesPage s r, !getFlag s.p .z)
  | .cmpDirIndY o => (indexCrossesPage (dpPointer s o.toNat) s.y, false)
  | .cmpAbsY a => (indexCrossesPage a s.y, false)
  | .cmpAbsX a => (indexCrossesPage a s.x, false)
  | .beq r => (branchCrossesPage s r, getFlag s.p .z)
  | .sbcDirIndY o => (indexCrossesPage (dpPointer s o.toNat) s.y, false)
  | .sbcAbsY a => (indexCrossesPage a s.y, false)
  | .sbcAbsX a => (indexCrossesPage a s.x, false)
  | .brk _ | .oraDirXInd _ | .cop _ | .oraStk _ | .tsbDir _ | .oraDir _ | .aslDir _ | .oraDirLong _ | .php
  | .oraImm _ | .aslAcc | .phd | .tsbAbs _ | .oraAbs _ | .aslAbs _ | .oraLong _ | .oraDirInd _ | .oraStkIndY _
  | .trbDir _ | .oraDirX _ | .aslDirX _ | .oraDirLongY _ | .clc | .incAcc | .tcs | .trbAbs _ | .aslAbsX _
  | .oraLongX _ | .jsrAbs _ | .andDirXInd _ | .jsl _ | .andStk _ | .bitDir _ | .andDir _ | .rolDir _
  | .andDirLong _ | .plp | .andImm _ | .rolAcc | .pld | .bitAbs _ | .andAbs _ | .rolAbs _ | .andLong _
  | .andDirInd _ | .andStkIndY _ | .bitDirX _ | .andDirX _ | .rolDirX _ | .andDirLongY _ | .sec | .decAcc
  | .tsc | .rolAbsX _ | .andLongX _ | .rti | .eorDirXInd _ | .wdm _ | .eorStk _ | .mvp _ _ | .eorDir _
  | .lsrDir _ | .eorDirLong _ | .pha | .eorImm _ | .lsrAcc | .phk | .jmpAbs _ | .eorAbs _ | .lsrAbs _
  | .eorLong _ | .eorDirInd _ | .eorStkIndY _ | .mvn _ _ | .eorDirX _ | .lsrDirX _ | .eorDirLongY _ | .cli
  | .phy | .tcd | .jmlLong _ | .lsrAbsX _ | .eorLongX _ | .rts | .adcDirXInd _ | .per _ | .adcStk _ | .stzDir _
  | .adcDir _ | .rorDir _ | .adcDirLong _ | .pla | .adcImm _ | .rorAcc | .rtl | .jmpAbsInd _ | .adcAbs _
  | .rorAbs _ | .adcLong _ | .adcDirInd _ | .adcStkIndY _ | .stzDirX _ | .adcDirX _ | .rorDirX _
  | .adcDirLongY _ | .sei | .ply | .tdc | .jmpAbsXInd _ | .rorAbsX _ | .adcLongX _ | .staDirXInd _ | .brl _
  | .staStk _ | .styDir _ | .staDir _ | .stxDir _ | .staDirLong _ | .dey | .bitImm _ | .txa | .phb | .styAbs _
  | .staAbs _ | .stxAbs _ | .staLong _ | .staDirIndY _ | .staDirInd _ | .staStkIndY _ | .styDirX _ | .staDirX _
  | .stxDirY _ | .staDirLongY _ | .tya | .staAbsY _ | .txs | .txy | .stzAbs _ | .staAbsX _ | .stzAbsX _
  | .staLongX _ | .ldyImm _ | .ldaDirXInd _ | .ldxImm _ | .ldaStk _ | .ldyDir _ | .ldaDir _ | .ldxDir _
  | .ldaDirLong _ | .tay | .ldaImm _ | .tax | .plb | .ldyAbs _ | .ldaAbs _ | .ldxAbs _ | .ldaLong _
  | .ldaDirInd _ | .ldaStkIndY _ | .ldyDirX _ | .ldaDirX _ | .ldxDirY _ | .ldaDirLongY _ | .clv | .tsx | .tyx
  | .ldaLongX _ | .cpyImm _ | .cmpDirXInd _ | .rep _ | .cmpStk _ | .cpyDir _ | .cmpDir _ | .decDir _
  | .cmpDirLong _ | .iny | .cmpImm _ | .dex | .wai | .cpyAbs _ | .cmpAbs _ | .decAbs _ | .cmpLong _
  | .cmpDirInd _ | .cmpStkIndY _ | .pei _ | .cmpDirX _ | .decDirX _ | .cmpDirLongY _ | .cld | .phx | .stp
  | .jmlAbsLong _ | .decAbsX _ | .cmpLongX _ | .cpxImm _ | .sbcDirXInd _ | .sep _ | .sbcStk _ | .cpxDir _
  | .sbcDir _ | .incDir _ | .sbcDirLong _ | .inx | .sbcImm _ | .nop | .xba | .cpxAbs _ | .sbcAbs _ | .incAbs _
  | .sbcLong _ | .sbcDirInd _ | .sbcStkIndY _ | .pea _ | .sbcDirX _ | .incDirX _ | .sbcDirLongY _ | .sed | .plx
  | .xce | .jsrAbsXInd _ | .incAbsX _ | .sbcLongX _ => (false, false)

/-- The variables of an instruction in a state (R361). -/
def cycleVars (i : Instr) (s : State) : CycleVars where
  m := bitNat (getFlag s.p .m)
  x := bitNat (getFlag s.p .x)
  e := bitNat s.e
  w := bitNat (decide (lowByte s.d ≠ 0x00))
  p := bitNat (pageAndTaken i s).1
  t := bitNat (pageAndTaken i s).2

/-- The opcode byte of an instruction; it does not depend on the widths. -/
def opcodeOf (i : Instr) : Byte := (encode true true i).headD 0x00

/-- The cycles of an instruction (R362); for MVN and MVP of one byte moved. -/
def cycles (i : Instr) (s : State) : Nat := cycleFormula (opcodeOf i) (cycleVars i s)

/-- The cycles of an interrupt entry: 8 in native mode, 7 in emulation mode (R310, R362). -/
def entryCycles (s : State) : Nat := if s.e then 7 else 8

end Sys2Proof.Machine
end

