-- ==== Sys2Proof/Tests/Slice0.lean ====
section
/-! SUPPORT. The model's own tests. Expected results are the spec's: opcodes and lengths from the matrix of R85 and the
formats of R82, results of steps from spec/95_test_vectors.md (each vector is named in a comment), the rest by hand from
the rule that is named. The last part gives, for every statement with hypotheses, a concrete case that meets them. -/

namespace Sys2Proof.Tests

open Machine

-- Each test is a kernel evaluation: one after another, not one thread for each.
set_option Elab.async false

/-! ## Helpers -/

/-- The base states N, M, X, B and E of V1. -/
def baseN : State := { State.reset with e := false, p := 0x00, sp := 0x01FF, pc := 0x1000 }
def baseM : State := { baseN with p := 0x20 }
def baseX : State := { baseN with p := 0x10 }
def baseB : State := { baseN with p := 0x30 }
def baseE : State := { baseN with e := true, p := 0x30 }

/-- One active input. -/
def inIrq : Inputs := { quietInputs with irq := true }
def inNmi : Inputs := { quietInputs with nmi := true }
def inReset : Inputs := { quietInputs with reset := true }
def inAbort : Inputs := { quietInputs with abort := true }

/-- Bytes put into memory. -/
def poke (cells : List (Addr × Byte)) (s : State) : State := cells.foldl (fun s cell => s.write cell.1 cell.2) s

/-- The vector table VT of V29. -/
def vectorTable : List (Addr × Byte) :=
  [(0x00FFEB, 0xA0), (0x00FFEF, 0x90), (0x00FFFB, 0xD0), (0x00FFFD, 0x80), (0x00FFFF, 0xC0)]

/-- A state with code at `PBR:PC` and bytes in memory. -/
def loaded (s : State) (code : List Byte) (cells : List (Addr × Byte)) : State := placeBytes code 0 (poke cells s)

/-- One step from `s`, with `code` at `PBR:PC` and the bytes `before` in memory, ends in `f` of the start with the bytes
`after` written: a field that `f` does not write, and a byte that `after` does not list, is as at the start. -/
def runs (s : State) (code : List Byte) (before after : List (Addr × Byte)) (f : State → State) : Bool :=
  match step (loaded s code before) with
  | .next t => decide (t = f (poke after (loaded s code before)))
  | .fault _ | .refused _ => false

/-- The next state of an outcome. -/
def nextOf : Result → Option State
  | .next t => some t
  | .fault _ | .refused _ => none

/-- The next state of an outcome that has one. -/
def after (r : Result) : State := (nextOf r).getD State.reset

theorem eq_next_after {r : Result} (h : (nextOf r).isSome = true) : r = .next (after r) := by
  cases r with
  | next t => rfl
  | fault f => cases h
  | refused f => cases h

/-! ## Well-formedness (R83, R92) -/

/-- R83: with its flag 1 an immediate of more than 8 bits is refused: an ill-formed term for each of the twelve checks. -/
theorem test_wellFormed_refuses_wide :
    Instr.wellFormed true false (.oraImm 0x0100) = false ∧
    Instr.wellFormed true false (.andImm 0x0100) = false ∧
    Instr.wellFormed true false (.eorImm 0x0100) = false ∧
    Instr.wellFormed true false (.adcImm 0x0100) = false ∧
    Instr.wellFormed true false (.bitImm 0x0100) = false ∧
    Instr.wellFormed false true (.ldyImm 0x0100) = false ∧
    Instr.wellFormed false true (.ldxImm 0x0100) = false ∧
    Instr.wellFormed true false (.ldaImm 0x0100) = false ∧
    Instr.wellFormed false true (.cpyImm 0x0100) = false ∧
    Instr.wellFormed true false (.cmpImm 0x0100) = false ∧
    Instr.wellFormed false true (.cpxImm 0x0100) = false ∧
    Instr.wellFormed true false (.sbcImm 0x0100) = false := by
  and_intros <;> decide

/-- R83: the largest immediates of both widths are accepted. -/
theorem test_wellFormed_accepts :
    Instr.wellFormed true false (.oraImm 0x00FF) = true ∧ Instr.wellFormed false true (.oraImm 0xFFFF) = true ∧
    Instr.wellFormed true false (.andImm 0x00FF) = true ∧ Instr.wellFormed false true (.andImm 0xFFFF) = true ∧
    Instr.wellFormed true false (.eorImm 0x00FF) = true ∧ Instr.wellFormed false true (.eorImm 0xFFFF) = true ∧
    Instr.wellFormed true false (.adcImm 0x00FF) = true ∧ Instr.wellFormed false true (.adcImm 0xFFFF) = true ∧
    Instr.wellFormed true false (.bitImm 0x00FF) = true ∧ Instr.wellFormed false true (.bitImm 0xFFFF) = true ∧
    Instr.wellFormed false true (.ldyImm 0x00FF) = true ∧ Instr.wellFormed true false (.ldyImm 0xFFFF) = true ∧
    Instr.wellFormed false true (.ldxImm 0x00FF) = true ∧ Instr.wellFormed true false (.ldxImm 0xFFFF) = true ∧
    Instr.wellFormed true false (.ldaImm 0x00FF) = true ∧ Instr.wellFormed false true (.ldaImm 0xFFFF) = true ∧
    Instr.wellFormed false true (.cpyImm 0x00FF) = true ∧ Instr.wellFormed true false (.cpyImm 0xFFFF) = true ∧
    Instr.wellFormed true false (.cmpImm 0x00FF) = true ∧ Instr.wellFormed false true (.cmpImm 0xFFFF) = true ∧
    Instr.wellFormed false true (.cpxImm 0x00FF) = true ∧ Instr.wellFormed true false (.cpxImm 0xFFFF) = true ∧
    Instr.wellFormed true false (.sbcImm 0x00FF) = true ∧ Instr.wellFormed false true (.sbcImm 0xFFFF) = true := by
  and_intros <;> decide

/-! ## Decoding (R82, R85, R87, R89) -/

theorem test_decode_row_0 :
    ∀ row ∈ ([
      ([0x00, 0x11], .brk 0x11), ([0x01, 0x11], .oraDirXInd 0x11), ([0x02, 0x11], .cop 0x11),
      ([0x03, 0x11], .oraStk 0x11), ([0x04, 0x11], .tsbDir 0x11), ([0x05, 0x11], .oraDir 0x11),
      ([0x06, 0x11], .aslDir 0x11), ([0x07, 0x11], .oraDirLong 0x11), ([0x08], .php),
      ([0x09, 0x11], .oraImm 0x0011), ([0x0A], .aslAcc), ([0x0B], .phd), ([0x0C, 0x11, 0x22], .tsbAbs 0x2211),
      ([0x0D, 0x11, 0x22], .oraAbs 0x2211), ([0x0E, 0x11, 0x22], .aslAbs 0x2211),
      ([0x0F, 0x11, 0x22, 0x33], .oraLong 0x332211)] : List (List Byte × Instr)),
    decode true true row.1 = .ok (row.2, []) := by
  decide +kernel

theorem test_decode_row_1 :
    ∀ row ∈ ([
      ([0x10, 0x11], .bpl 0x11), ([0x11, 0x11], .oraDirIndY 0x11), ([0x12, 0x11], .oraDirInd 0x11),
      ([0x13, 0x11], .oraStkIndY 0x11), ([0x14, 0x11], .trbDir 0x11), ([0x15, 0x11], .oraDirX 0x11),
      ([0x16, 0x11], .aslDirX 0x11), ([0x17, 0x11], .oraDirLongY 0x11), ([0x18], .clc),
      ([0x19, 0x11, 0x22], .oraAbsY 0x2211), ([0x1A], .incAcc), ([0x1B], .tcs),
      ([0x1C, 0x11, 0x22], .trbAbs 0x2211), ([0x1D, 0x11, 0x22], .oraAbsX 0x2211),
      ([0x1E, 0x11, 0x22], .aslAbsX 0x2211), ([0x1F, 0x11, 0x22, 0x33], .oraLongX 0x332211)] : List (List Byte × Instr)),
    decode true true row.1 = .ok (row.2, []) := by
  decide +kernel

theorem test_decode_row_2 :
    ∀ row ∈ ([
      ([0x20, 0x11, 0x22], .jsrAbs 0x2211), ([0x21, 0x11], .andDirXInd 0x11),
      ([0x22, 0x11, 0x22, 0x33], .jsl 0x332211), ([0x23, 0x11], .andStk 0x11), ([0x24, 0x11], .bitDir 0x11),
      ([0x25, 0x11], .andDir 0x11), ([0x26, 0x11], .rolDir 0x11), ([0x27, 0x11], .andDirLong 0x11),
      ([0x28], .plp), ([0x29, 0x11], .andImm 0x0011), ([0x2A], .rolAcc), ([0x2B], .pld),
      ([0x2C, 0x11, 0x22], .bitAbs 0x2211), ([0x2D, 0x11, 0x22], .andAbs 0x2211),
      ([0x2E, 0x11, 0x22], .rolAbs 0x2211), ([0x2F, 0x11, 0x22, 0x33], .andLong 0x332211)] : List (List Byte × Instr)),
    decode true true row.1 = .ok (row.2, []) := by
  decide +kernel

theorem test_decode_row_3 :
    ∀ row ∈ ([
      ([0x30, 0x11], .bmi 0x11), ([0x31, 0x11], .andDirIndY 0x11), ([0x32, 0x11], .andDirInd 0x11),
      ([0x33, 0x11], .andStkIndY 0x11), ([0x34, 0x11], .bitDirX 0x11), ([0x35, 0x11], .andDirX 0x11),
      ([0x36, 0x11], .rolDirX 0x11), ([0x37, 0x11], .andDirLongY 0x11), ([0x38], .sec),
      ([0x39, 0x11, 0x22], .andAbsY 0x2211), ([0x3A], .decAcc), ([0x3B], .tsc),
      ([0x3C, 0x11, 0x22], .bitAbsX 0x2211), ([0x3D, 0x11, 0x22], .andAbsX 0x2211),
      ([0x3E, 0x11, 0x22], .rolAbsX 0x2211), ([0x3F, 0x11, 0x22, 0x33], .andLongX 0x332211)] : List (List Byte × Instr)),
    decode true true row.1 = .ok (row.2, []) := by
  decide +kernel

theorem test_decode_row_4 :
    ∀ row ∈ ([
      ([0x40], .rti), ([0x41, 0x11], .eorDirXInd 0x11), ([0x42, 0x11], .wdm 0x11), ([0x43, 0x11], .eorStk 0x11),
      ([0x44, 0x11, 0x22], .mvp 0x11 0x22), ([0x45, 0x11], .eorDir 0x11), ([0x46, 0x11], .lsrDir 0x11),
      ([0x47, 0x11], .eorDirLong 0x11), ([0x48], .pha), ([0x49, 0x11], .eorImm 0x0011), ([0x4A], .lsrAcc),
      ([0x4B], .phk), ([0x4C, 0x11, 0x22], .jmpAbs 0x2211), ([0x4D, 0x11, 0x22], .eorAbs 0x2211),
      ([0x4E, 0x11, 0x22], .lsrAbs 0x2211), ([0x4F, 0x11, 0x22, 0x33], .eorLong 0x332211)] : List (List Byte × Instr)),
    decode true true row.1 = .ok (row.2, []) := by
  decide +kernel

theorem test_decode_row_5 :
    ∀ row ∈ ([
      ([0x50, 0x11], .bvc 0x11), ([0x51, 0x11], .eorDirIndY 0x11), ([0x52, 0x11], .eorDirInd 0x11),
      ([0x53, 0x11], .eorStkIndY 0x11), ([0x54, 0x11, 0x22], .mvn 0x11 0x22), ([0x55, 0x11], .eorDirX 0x11),
      ([0x56, 0x11], .lsrDirX 0x11), ([0x57, 0x11], .eorDirLongY 0x11), ([0x58], .cli),
      ([0x59, 0x11, 0x22], .eorAbsY 0x2211), ([0x5A], .phy), ([0x5B], .tcd),
      ([0x5C, 0x11, 0x22, 0x33], .jmlLong 0x332211), ([0x5D, 0x11, 0x22], .eorAbsX 0x2211),
      ([0x5E, 0x11, 0x22], .lsrAbsX 0x2211), ([0x5F, 0x11, 0x22, 0x33], .eorLongX 0x332211)] : List (List Byte × Instr)),
    decode true true row.1 = .ok (row.2, []) := by
  decide +kernel

theorem test_decode_row_6 :
    ∀ row ∈ ([
      ([0x60], .rts), ([0x61, 0x11], .adcDirXInd 0x11), ([0x62, 0x11, 0x22], .per 0x2211),
      ([0x63, 0x11], .adcStk 0x11), ([0x64, 0x11], .stzDir 0x11), ([0x65, 0x11], .adcDir 0x11),
      ([0x66, 0x11], .rorDir 0x11), ([0x67, 0x11], .adcDirLong 0x11), ([0x68], .pla),
      ([0x69, 0x11], .adcImm 0x0011), ([0x6A], .rorAcc), ([0x6B], .rtl), ([0x6C, 0x11, 0x22], .jmpAbsInd 0x2211),
      ([0x6D, 0x11, 0x22], .adcAbs 0x2211), ([0x6E, 0x11, 0x22], .rorAbs 0x2211),
      ([0x6F, 0x11, 0x22, 0x33], .adcLong 0x332211)] : List (List Byte × Instr)),
    decode true true row.1 = .ok (row.2, []) := by
  decide +kernel

theorem test_decode_row_7 :
    ∀ row ∈ ([
      ([0x70, 0x11], .bvs 0x11), ([0x71, 0x11], .adcDirIndY 0x11), ([0x72, 0x11], .adcDirInd 0x11),
      ([0x73, 0x11], .adcStkIndY 0x11), ([0x74, 0x11], .stzDirX 0x11), ([0x75, 0x11], .adcDirX 0x11),
      ([0x76, 0x11], .rorDirX 0x11), ([0x77, 0x11], .adcDirLongY 0x11), ([0x78], .sei),
      ([0x79, 0x11, 0x22], .adcAbsY 0x2211), ([0x7A], .ply), ([0x7B], .tdc),
      ([0x7C, 0x11, 0x22], .jmpAbsXInd 0x2211), ([0x7D, 0x11, 0x22], .adcAbsX 0x2211),
      ([0x7E, 0x11, 0x22], .rorAbsX 0x2211), ([0x7F, 0x11, 0x22, 0x33], .adcLongX 0x332211)] : List (List Byte × Instr)),
    decode true true row.1 = .ok (row.2, []) := by
  decide +kernel

theorem test_decode_row_8 :
    ∀ row ∈ ([
      ([0x80, 0x11], .bra 0x11), ([0x81, 0x11], .staDirXInd 0x11), ([0x82, 0x11, 0x22], .brl 0x2211),
      ([0x83, 0x11], .staStk 0x11), ([0x84, 0x11], .styDir 0x11), ([0x85, 0x11], .staDir 0x11),
      ([0x86, 0x11], .stxDir 0x11), ([0x87, 0x11], .staDirLong 0x11), ([0x88], .dey),
      ([0x89, 0x11], .bitImm 0x0011), ([0x8A], .txa), ([0x8B], .phb), ([0x8C, 0x11, 0x22], .styAbs 0x2211),
      ([0x8D, 0x11, 0x22], .staAbs 0x2211), ([0x8E, 0x11, 0x22], .stxAbs 0x2211),
      ([0x8F, 0x11, 0x22, 0x33], .staLong 0x332211)] : List (List Byte × Instr)),
    decode true true row.1 = .ok (row.2, []) := by
  decide +kernel

theorem test_decode_row_9 :
    ∀ row ∈ ([
      ([0x90, 0x11], .bcc 0x11), ([0x91, 0x11], .staDirIndY 0x11), ([0x92, 0x11], .staDirInd 0x11),
      ([0x93, 0x11], .staStkIndY 0x11), ([0x94, 0x11], .styDirX 0x11), ([0x95, 0x11], .staDirX 0x11),
      ([0x96, 0x11], .stxDirY 0x11), ([0x97, 0x11], .staDirLongY 0x11), ([0x98], .tya),
      ([0x99, 0x11, 0x22], .staAbsY 0x2211), ([0x9A], .txs), ([0x9B], .txy), ([0x9C, 0x11, 0x22], .stzAbs 0x2211),
      ([0x9D, 0x11, 0x22], .staAbsX 0x2211), ([0x9E, 0x11, 0x22], .stzAbsX 0x2211),
      ([0x9F, 0x11, 0x22, 0x33], .staLongX 0x332211)] : List (List Byte × Instr)),
    decode true true row.1 = .ok (row.2, []) := by
  decide +kernel

theorem test_decode_row_A :
    ∀ row ∈ ([
      ([0xA0, 0x11], .ldyImm 0x0011), ([0xA1, 0x11], .ldaDirXInd 0x11), ([0xA2, 0x11], .ldxImm 0x0011),
      ([0xA3, 0x11], .ldaStk 0x11), ([0xA4, 0x11], .ldyDir 0x11), ([0xA5, 0x11], .ldaDir 0x11),
      ([0xA6, 0x11], .ldxDir 0x11), ([0xA7, 0x11], .ldaDirLong 0x11), ([0xA8], .tay),
      ([0xA9, 0x11], .ldaImm 0x0011), ([0xAA], .tax), ([0xAB], .plb), ([0xAC, 0x11, 0x22], .ldyAbs 0x2211),
      ([0xAD, 0x11, 0x22], .ldaAbs 0x2211), ([0xAE, 0x11, 0x22], .ldxAbs 0x2211),
      ([0xAF, 0x11, 0x22, 0x33], .ldaLong 0x332211)] : List (List Byte × Instr)),
    decode true true row.1 = .ok (row.2, []) := by
  decide +kernel

theorem test_decode_row_B :
    ∀ row ∈ ([
      ([0xB0, 0x11], .bcs 0x11), ([0xB1, 0x11], .ldaDirIndY 0x11), ([0xB2, 0x11], .ldaDirInd 0x11),
      ([0xB3, 0x11], .ldaStkIndY 0x11), ([0xB4, 0x11], .ldyDirX 0x11), ([0xB5, 0x11], .ldaDirX 0x11),
      ([0xB6, 0x11], .ldxDirY 0x11), ([0xB7, 0x11], .ldaDirLongY 0x11), ([0xB8], .clv),
      ([0xB9, 0x11, 0x22], .ldaAbsY 0x2211), ([0xBA], .tsx), ([0xBB], .tyx),
      ([0xBC, 0x11, 0x22], .ldyAbsX 0x2211), ([0xBD, 0x11, 0x22], .ldaAbsX 0x2211),
      ([0xBE, 0x11, 0x22], .ldxAbsY 0x2211), ([0xBF, 0x11, 0x22, 0x33], .ldaLongX 0x332211)] : List (List Byte × Instr)),
    decode true true row.1 = .ok (row.2, []) := by
  decide +kernel

theorem test_decode_row_C :
    ∀ row ∈ ([
      ([0xC0, 0x11], .cpyImm 0x0011), ([0xC1, 0x11], .cmpDirXInd 0x11), ([0xC2, 0x11], .rep 0x11),
      ([0xC3, 0x11], .cmpStk 0x11), ([0xC4, 0x11], .cpyDir 0x11), ([0xC5, 0x11], .cmpDir 0x11),
      ([0xC6, 0x11], .decDir 0x11), ([0xC7, 0x11], .cmpDirLong 0x11), ([0xC8], .iny),
      ([0xC9, 0x11], .cmpImm 0x0011), ([0xCA], .dex), ([0xCB], .wai), ([0xCC, 0x11, 0x22], .cpyAbs 0x2211),
      ([0xCD, 0x11, 0x22], .cmpAbs 0x2211), ([0xCE, 0x11, 0x22], .decAbs 0x2211),
      ([0xCF, 0x11, 0x22, 0x33], .cmpLong 0x332211)] : List (List Byte × Instr)),
    decode true true row.1 = .ok (row.2, []) := by
  decide +kernel

theorem test_decode_row_D :
    ∀ row ∈ ([
      ([0xD0, 0x11], .bne 0x11), ([0xD1, 0x11], .cmpDirIndY 0x11), ([0xD2, 0x11], .cmpDirInd 0x11),
      ([0xD3, 0x11], .cmpStkIndY 0x11), ([0xD4, 0x11], .pei 0x11), ([0xD5, 0x11], .cmpDirX 0x11),
      ([0xD6, 0x11], .decDirX 0x11), ([0xD7, 0x11], .cmpDirLongY 0x11), ([0xD8], .cld),
      ([0xD9, 0x11, 0x22], .cmpAbsY 0x2211), ([0xDA], .phx), ([0xDB], .stp),
      ([0xDC, 0x11, 0x22], .jmlAbsLong 0x2211), ([0xDD, 0x11, 0x22], .cmpAbsX 0x2211),
      ([0xDE, 0x11, 0x22], .decAbsX 0x2211), ([0xDF, 0x11, 0x22, 0x33], .cmpLongX 0x332211)] : List (List Byte × Instr)),
    decode true true row.1 = .ok (row.2, []) := by
  decide +kernel

theorem test_decode_row_E :
    ∀ row ∈ ([
      ([0xE0, 0x11], .cpxImm 0x0011), ([0xE1, 0x11], .sbcDirXInd 0x11), ([0xE2, 0x11], .sep 0x11),
      ([0xE3, 0x11], .sbcStk 0x11), ([0xE4, 0x11], .cpxDir 0x11), ([0xE5, 0x11], .sbcDir 0x11),
      ([0xE6, 0x11], .incDir 0x11), ([0xE7, 0x11], .sbcDirLong 0x11), ([0xE8], .inx),
      ([0xE9, 0x11], .sbcImm 0x0011), ([0xEA], .nop), ([0xEB], .xba), ([0xEC, 0x11, 0x22], .cpxAbs 0x2211),
      ([0xED, 0x11, 0x22], .sbcAbs 0x2211), ([0xEE, 0x11, 0x22], .incAbs 0x2211),
      ([0xEF, 0x11, 0x22, 0x33], .sbcLong 0x332211)] : List (List Byte × Instr)),
    decode true true row.1 = .ok (row.2, []) := by
  decide +kernel

theorem test_decode_row_F :
    ∀ row ∈ ([
      ([0xF0, 0x11], .beq 0x11), ([0xF1, 0x11], .sbcDirIndY 0x11), ([0xF2, 0x11], .sbcDirInd 0x11),
      ([0xF3, 0x11], .sbcStkIndY 0x11), ([0xF4, 0x11, 0x22], .pea 0x2211), ([0xF5, 0x11], .sbcDirX 0x11),
      ([0xF6, 0x11], .incDirX 0x11), ([0xF7, 0x11], .sbcDirLongY 0x11), ([0xF8], .sed),
      ([0xF9, 0x11, 0x22], .sbcAbsY 0x2211), ([0xFA], .plx), ([0xFB], .xce),
      ([0xFC, 0x11, 0x22], .jsrAbsXInd 0x2211), ([0xFD, 0x11, 0x22], .sbcAbsX 0x2211),
      ([0xFE, 0x11, 0x22], .incAbsX 0x2211), ([0xFF, 0x11, 0x22, 0x33], .sbcLongX 0x332211)] : List (List Byte × Instr)),
    decode true true row.1 = .ok (row.2, []) := by
  decide +kernel

/-- R83: with its own flag 0 an immediate has two operand bytes, whatever the other flag is. -/
theorem test_decode_wide_immediates :
    decode false true [0x09, 0x11, 0x22] = .ok (.oraImm 0x2211, []) ∧
    decode false true [0x29, 0x11, 0x22] = .ok (.andImm 0x2211, []) ∧
    decode false true [0x49, 0x11, 0x22] = .ok (.eorImm 0x2211, []) ∧
    decode false true [0x69, 0x11, 0x22] = .ok (.adcImm 0x2211, []) ∧
    decode false true [0x89, 0x11, 0x22] = .ok (.bitImm 0x2211, []) ∧
    decode true false [0xA0, 0x11, 0x22] = .ok (.ldyImm 0x2211, []) ∧
    decode true false [0xA2, 0x11, 0x22] = .ok (.ldxImm 0x2211, []) ∧
    decode false true [0xA9, 0x11, 0x22] = .ok (.ldaImm 0x2211, []) ∧
    decode true false [0xC0, 0x11, 0x22] = .ok (.cpyImm 0x2211, []) ∧
    decode false true [0xC9, 0x11, 0x22] = .ok (.cmpImm 0x2211, []) ∧
    decode true false [0xE0, 0x11, 0x22] = .ok (.cpxImm 0x2211, []) ∧
    decode false true [0xE9, 0x11, 0x22] = .ok (.sbcImm 0x2211, []) := by
  and_intros <;> decide

theorem test_decode_refuses_short :
    decode true true [] = .error .noOpcode ∧ decode true true [0xA5] = .error (.truncated 0xA5) ∧
    decode false true [0xA9, 0x11] = .error (.truncated 0xA9) ∧
    decode true true [0x22, 0x11, 0x22] = .error (.truncated 0x22) := by
  decide +kernel

/-- The numbering of spec/opcode_table.json: the opcode is bits 7 to 0, operand bytes count on from it. -/
theorem test_decodeTableWord :
    decodeTableWord 8 0xEA = some .nop ∧ decodeTableWord 16 0x3469 = some (.adcImm 0x0034) ∧
    decodeTableWord 32 0x20345622 = some (.jsl 0x203456) ∧ decodeTableWord 24 0x7E7F54 = some (.mvn 0x7F 0x7E) ∧
    decodeTableWord 8 0xAD = some (.ldaAbs 0x0000) := by
  decide +kernel

/-- A table word is the first instruction that runs after reset (log 23); R240. -/
theorem test_withFetchWord :
    nextOf (step (State.reset.withFetchWord 16 0x80A9)) =
      some { State.reset.withFetchWord 16 0x80A9 with c := 0x0080, pc := 0x0002, p := 0xB4 } := by
  decide +kernel

/-! ## Steps, from spec/95_test_vectors.md -/

theorem test_addressing_a_vectors :
    -- TA01, LDA
    runs { baseM with d := 0x2000 } [0xA5, 0x12] [(0x002012, 0xAB)] []
      (fun s => { s with c := 0x00AB, pc := 0x1002, p := 0xA0 }) = true ∧
    -- TA03, LDA
    runs { baseE with x := 0x0010, d := 0x0200 } [0xB5, 0xF8] [(0x000208, 0x5A), (0x000308, 0xA5)] []
      (fun s => { s with c := 0x005A, pc := 0x1002 }) = true ∧
    -- TA04, LDA
    runs { baseE with x := 0x0010, d := 0x0201 } [0xB5, 0xF8] [(0x000209, 0x5A), (0x000309, 0xA5)] []
      (fun s => { s with c := 0x00A5, pc := 0x1002, p := 0xB0 }) = true ∧
    -- TA06, LDA
    runs baseE [0xB2, 0xFF] [(0x000000, 0x12), (0x0000FF, 0x34), (0x000100, 0x99), (0x001234, 0x42),
      (0x009934, 0x24)] [] (fun s => { s with c := 0x0042, pc := 0x1002 }) = true ∧
    -- TA07, LDA
    runs baseB [0xB2, 0xFF] [(0x000000, 0x12), (0x0000FF, 0x34), (0x000100, 0x99), (0x001234, 0x42),
      (0x009934, 0x24)] [] (fun s => { s with c := 0x0024, pc := 0x1002 }) = true ∧
    -- TA08, LDA
    runs { baseN with y := 0x0001, dbr := 0x12 } [0xB1, 0x10] [(0x000010, 0xFF), (0x000011, 0xFF), (0x120000, 0x11),
      (0x130000, 0xCD), (0x130001, 0xAB)] [] (fun s => { s with c := 0xABCD, pc := 0x1002, p := 0x80 }) = true ∧
    -- TA09, LDA
    runs { baseE with x := 0x0005 } [0xA1, 0xFE] [(0x000003, 0x00), (0x000004, 0x30), (0x000103, 0x00),
      (0x000104, 0x40), (0x003000, 0x0A), (0x004000, 0x0B)] [] (fun s => { s with c := 0x000A, pc := 0x1002 }) = true := by
  decide +kernel

theorem test_addressing_b_vectors :
    -- TA10, LDA
    runs baseE [0xA7, 0xFE] [(0x000000, 0x77), (0x0000FE, 0x56), (0x0000FF, 0x34), (0x000100, 0x12),
      (0x123456, 0xC3)] [] (fun s => { s with c := 0x00C3, pc := 0x1002, p := 0xB0 }) = true ∧
    -- TA11, LDA
    runs { baseN with y := 0x0002 } [0xB7, 0x20] [(0x000020, 0xFF), (0x000021, 0xFF), (0x000022, 0x12),
      (0x130001, 0xEF), (0x130002, 0xBE)] [] (fun s => { s with c := 0xBEEF, pc := 0x1002, p := 0x80 }) = true ∧
    -- TA12, LDA
    runs { baseN with dbr := 0x7E } [0xAD, 0x00, 0x20] [(0x7E2000, 0xCD), (0x7E2001, 0xAB)] []
      (fun s => { s with c := 0xABCD, pc := 0x1003, p := 0x80 }) = true ∧
    -- TA13, LDA
    runs { baseN with dbr := 0x7E } [0xAD, 0xFF, 0xFF] [(0x7E0000, 0x11), (0x7EFFFF, 0xCD), (0x7F0000, 0xAB)] []
      (fun s => { s with c := 0xABCD, pc := 0x1003, p := 0x80 }) = true ∧
    -- TA14, LDA
    runs { baseM with x := 0x0002 } [0xBD, 0x34, 0x12] [(0x001236, 0x66)] []
      (fun s => { s with c := 0x0066, pc := 0x1003 }) = true ∧
    -- TA16, LDA
    runs { baseM with y := 0x0002 } [0xB9, 0x34, 0x12] [(0x001236, 0x67)] []
      (fun s => { s with c := 0x0067, pc := 0x1003 }) = true ∧
    -- TA17, LDA
    runs { baseM with dbr := 0x7E } [0xAF, 0x56, 0x34, 0x12] [(0x123456, 0x99), (0x7E3456, 0x11)] []
      (fun s => { s with c := 0x0099, pc := 0x1004, p := 0xA0 }) = true := by
  decide +kernel

theorem test_addressing_c_vectors :
    -- TA18, LDA
    runs { baseN with x := 0x0001 } [0xBF, 0xFF, 0xFF, 0xFF] [(0x000000, 0x22), (0x000001, 0x11)] []
      (fun s => { s with c := 0x1122, pc := 0x1004 }) = true ∧
    -- TA19, LDA
    runs { baseM with sp := 0x01F0 } [0xA3, 0x03] [(0x0001F3, 0x5C)] []
      (fun s => { s with c := 0x005C, pc := 0x1002 }) = true ∧
    -- TA21, LDA
    runs { baseM with y := 0x0010, sp := 0x01F0, dbr := 0x02 } [0xB3, 0x01] [(0x0001F1, 0x00), (0x0001F2, 0x30),
      (0x023010, 0x4D)] [] (fun s => { s with c := 0x004D, pc := 0x1002 }) = true ∧
    -- TA22, LDA
    runs baseM [0xA9, 0x34, 0x12] [] [] (fun s => { s with c := 0x0034, pc := 0x1002 }) = true ∧
    -- TA24, JMP
    runs { baseN with pbr := 0x05 } [0x6C, 0xFF, 0xFF] [(0x000000, 0x56), (0x00FFFF, 0x78), (0x010000, 0x99)] []
      (fun s => { s with pc := 0x5678 }) = true ∧
    -- TA25, JMP
    runs { baseN with x := 0x0004, pbr := 0x05 } [0x7C, 0x00, 0x20] [(0x002004, 0x11), (0x002005, 0x11),
      (0x052004, 0xCD), (0x052005, 0xAB)] [] (fun s => { s with pc := 0xABCD }) = true ∧
    -- TA26, JML
    runs baseN [0xDC, 0x00, 0x20] [(0x002000, 0xBA), (0x002001, 0xDC), (0x002002, 0xFE)] []
      (fun s => { s with pbr := 0xFE, pc := 0xDCBA }) = true := by
  decide +kernel

theorem test_arithmetic_vectors :
    -- TB01, ADC
    runs { baseB with c := 0x007F } [0x69, 0x10] [] [] (fun s => { s with c := 0x008F, pc := 0x1002, p := 0xF0 }) =
      true ∧
    -- TB08, ADC
    runs { baseB with c := 0x0009, p := 0x38 } [0x69, 0x01] [] [] (fun s => { s with c := 0x0010, pc := 0x1002 }) =
      true ∧
    -- TB14, SBC
    runs { baseB with c := 0x0050, p := 0x31 } [0xE9, 0xF0] [] []
      (fun s => { s with c := 0x0060, pc := 0x1002, p := 0x30 }) = true ∧
    -- TB20, SBC
    runs { baseB with c := 0x0010, p := 0x39 } [0xE9, 0x01] [] [] (fun s => { s with c := 0x0009, pc := 0x1002 }) =
      true ∧
    -- TB23, CMP
    runs { baseB with c := 0x0040 } [0xC9, 0x41] [] [] (fun s => { s with pc := 0x1002, p := 0xB0 }) = true ∧
    -- TB27, CPX
    runs { baseN with x := 0x0010 } [0xE0, 0x10, 0x00] [] [] (fun s => { s with pc := 0x1003, p := 0x03 }) = true ∧
    -- TB29, CPY
    runs { baseB with y := 0x0005 } [0xC4, 0x20] [(0x000020, 0x06)] [] (fun s => { s with pc := 0x1002, p := 0xB0 })
      = true := by
  decide +kernel

theorem test_logic_vectors :
    -- TC01, AND
    runs { baseB with c := 0x00CA } [0x29, 0x0F] [] [] (fun s => { s with c := 0x000A, pc := 0x1002 }) = true ∧
    -- TC03, EOR
    runs { baseB with c := 0x00FF } [0x49, 0xFF] [] [] (fun s => { s with c := 0x0000, pc := 0x1002, p := 0x32 }) =
      true ∧
    -- TC04, ORA
    runs { baseN with c := 0x0F00 } [0x09, 0x01, 0x80] [] []
      (fun s => { s with c := 0x8F01, pc := 0x1003, p := 0x80 }) = true ∧
    -- TC06, BIT
    runs { baseB with c := 0x0001 } [0x2C, 0x34, 0x12] [(0x001234, 0xC0)] []
      (fun s => { s with pc := 0x1003, p := 0xF2 }) = true ∧
    -- TC09, TRB
    runs { baseB with c := 0x0080 } [0x1C, 0x00, 0x20] [(0x002000, 0x84)] [(0x002000, 0x04)]
      (fun s => { s with pc := 0x1003 }) = true ∧
    -- TC10, TRB
    runs { baseB with c := 0x0001 } [0x1C, 0x34, 0x12] [(0x001234, 0x20)] [(0x001234, 0x20)]
      (fun s => { s with pc := 0x1003, p := 0x32 }) = true ∧
    -- TC11, TSB
    runs { baseB with c := 0x0080 } [0x04, 0x20] [(0x000020, 0x04)] [(0x000020, 0x84)]
      (fun s => { s with pc := 0x1002, p := 0x32 }) = true := by
  decide +kernel

theorem test_shift_vectors :
    -- TD01, ASL
    runs { baseB with c := 0x0081 } [0x0A] [] [] (fun s => { s with c := 0x0002, pc := 0x1001, p := 0x31 }) = true ∧
    -- TD04, LSR
    runs { baseB with c := 0x0001 } [0x4A] [] [] (fun s => { s with c := 0x0000, pc := 0x1001, p := 0x33 }) = true ∧
    -- TD06, ROL
    runs { baseB with c := 0x0080, p := 0x31 } [0x2A] [] [] (fun s => { s with c := 0x0001, pc := 0x1001 }) = true ∧
    -- TD07, ROR
    runs { baseN with c := 0x0001 } [0x6A] [] [] (fun s => { s with c := 0x0000, pc := 0x1001, p := 0x03 }) = true ∧
    -- TD10, DEC
    runs { baseB with c := 0x0001 } [0x3A] [] [] (fun s => { s with c := 0x0000, pc := 0x1001, p := 0x32 }) = true ∧
    -- TD12, DEX
    runs baseN [0xCA] [] [] (fun s => { s with x := 0xFFFF, pc := 0x1001, p := 0x80 }) = true ∧
    -- TD14, DEY
    runs { baseB with y := 0x0001 } [0x88] [] [] (fun s => { s with y := 0x0000, pc := 0x1001, p := 0x32 }) = true ∧
    -- TD15, INC
    runs baseB [0xEE, 0x34, 0x12] [(0x001234, 0x7F)] [(0x001234, 0x80)]
      (fun s => { s with pc := 0x1003, p := 0xB0 }) = true ∧
    -- TD18, INX
    runs { baseN with x := 0x00FF } [0xE8] [] [] (fun s => { s with x := 0x0100, pc := 0x1001 }) = true ∧
    -- TD19, INY
    runs { baseB with y := 0x00FF } [0xC8] [] [] (fun s => { s with y := 0x0000, pc := 0x1001, p := 0x32 }) = true := by
  decide +kernel

theorem test_branch_vectors :
    -- TE01, BCC
    runs baseB [0x90, 0x05] [] [] (fun s => { s with pc := 0x1007 }) = true ∧
    -- TE02, BCC
    runs { baseB with p := 0x31 } [0x90, 0x05] [] [] (fun s => { s with pc := 0x1002 }) = true ∧
    -- TE03, BCS
    runs { baseB with p := 0x31 } [0xB0, 0xFC] [] [] (fun s => { s with pc := 0x0FFE }) = true ∧
    -- TE04, BEQ
    runs { baseB with pc := 0x2000, p := 0x32 } [0xF0, 0x7F] [] [] (fun s => { s with pc := 0x2081 }) = true ∧
    -- TE05, BMI
    runs { baseB with pc := 0x2000, p := 0xB0 } [0x30, 0x80] [] [] (fun s => { s with pc := 0x1F82 }) = true ∧
    -- TE08, BPL
    runs { baseB with pc := 0x00F0 } [0x10, 0x20] [] [] (fun s => { s with pc := 0x0112 }) = true ∧
    -- TE09, BRA
    runs { baseB with pbr := 0x02, pc := 0xFFFE } [0x80, 0x10] [] [] (fun s => { s with pc := 0x0010 }) = true ∧
    -- TE10, BRL
    runs { baseB with pc := 0x8000 } [0x82, 0xFD, 0xFF] [] [] (fun s => { s with  }) = true ∧
    -- TE12, BVC
    runs baseB [0x50, 0x02] [] [] (fun s => { s with pc := 0x1004 }) = true ∧
    -- TE13, BVS
    runs { baseB with p := 0x70 } [0x70, 0x02] [] [] (fun s => { s with pc := 0x1004 }) = true := by
  decide +kernel

theorem test_flag_a_vectors :
    -- TF01, CLC
    runs { baseB with p := 0xFF } [0x18] [] [] (fun s => { s with pc := 0x1001, p := 0xFE }) = true ∧
    -- TF02, CLD
    runs { baseB with p := 0xFF } [0xD8] [] [] (fun s => { s with pc := 0x1001, p := 0xF7 }) = true ∧
    -- TF03, CLI
    runs { baseB with p := 0xFF } [0x58] [] [] (fun s => { s with pc := 0x1001, p := 0xFB }) = true ∧
    -- TF04, CLV
    runs { baseB with p := 0xFF } [0xB8] [] [] (fun s => { s with pc := 0x1001, p := 0xBF }) = true ∧
    -- TF05, SEC
    runs baseN [0x38] [] [] (fun s => { s with pc := 0x1001, p := 0x01 }) = true ∧
    -- TF06, SED
    runs baseN [0xF8] [] [] (fun s => { s with pc := 0x1001, p := 0x08 }) = true := by
  decide +kernel

theorem test_flag_b_vectors :
    -- TF07, SEI
    runs baseN [0x78] [] [] (fun s => { s with pc := 0x1001, p := 0x04 }) = true ∧
    -- TF08, REP
    runs { baseB with p := 0x34 } [0xC2, 0x30] [] [] (fun s => { s with pc := 0x1002, p := 0x04 }) = true ∧
    -- TF12, SEP
    runs { baseN with x := 0x1234, y := 0xABCD } [0xE2, 0x10] [] []
      (fun s => { s with x := 0x0034, y := 0x00CD, pc := 0x1002, p := 0x10 }) = true ∧
    -- TF14, SEP
    runs { baseN with c := 0x1234 } [0xE2, 0x20] [] [] (fun s => { s with pc := 0x1002, p := 0x20 }) = true ∧
    -- TF16, XCE
    runs { baseN with c := 0xABCD, x := 0x1234, y := 0x5678, sp := 0x1FF0, p := 0x01 } [0xFB] [] []
      (fun s => { s with x := 0x0034, y := 0x0078, sp := 0x01F0, pc := 0x1001, p := 0x30, e := true }) = true ∧
    -- TF17, XCE
    runs { baseE with sp := 0x01F0 } [0xFB] [] [] (fun s => { s with pc := 0x1001, p := 0x31, e := false }) = true := by
  decide +kernel

theorem test_flow_a_vectors :
    -- TG01, JMP
    runs { baseN with pbr := 0x02 } [0x4C, 0x34, 0x20] [] [] (fun s => { s with pc := 0x2034 }) = true ∧
    -- TG03, JML
    runs baseN [0x5C, 0xBA, 0xDC, 0xFE] [] [] (fun s => { s with pbr := 0xFE, pc := 0xDCBA }) = true ∧
    -- TG04, JSR
    runs { baseN with pc := 0x8000 } [0x20, 0x34, 0x20] [] [(0x0001FF, 0x80), (0x0001FE, 0x02)]
      (fun s => { s with sp := 0x01FD, pc := 0x2034 }) = true ∧
    -- TG06, JSR
    runs { baseN with x := 0x0002, pbr := 0x01, pc := 0x8000 } [0xFC, 0x00, 0x30] [(0x013002, 0x00),
      (0x013003, 0x90)] [(0x0001FF, 0x80), (0x0001FE, 0x02)] (fun s => { s with sp := 0x01FD, pc := 0x9000 }) = true ∧
    -- TG08, JSL
    runs { baseN with sp := 0x1FFF, pbr := 0x01, pc := 0x8000 } [0x22, 0x56, 0x34, 0x20] [] [(0x001FFF, 0x01),
      (0x001FFE, 0x80), (0x001FFD, 0x03)] (fun s => { s with sp := 0x1FFC, pbr := 0x20, pc := 0x3456 }) = true ∧
    -- TG10, RTS
    runs { baseN with sp := 0x01FD } [0x60] [(0x0001FE, 0x02), (0x0001FF, 0x80)] []
      (fun s => { s with sp := 0x01FF, pc := 0x8003 }) = true ∧
    -- TG13, RTL
    runs { baseN with sp := 0x1FFC } [0x6B] [(0x001FFD, 0x03), (0x001FFE, 0x80), (0x001FFF, 0x01)] []
      (fun s => { s with sp := 0x1FFF, pbr := 0x01, pc := 0x8004 }) = true ∧
    -- TG15, NOP
    runs baseN [0xEA] [] [] (fun s => { s with pc := 0x1001 }) = true ∧
    -- TG16, WDM
    runs baseN [0x42, 0xFF] [] [] (fun s => { s with pc := 0x1002 }) = true := by
  decide +kernel

theorem test_flow_b_vectors :
    -- TG17, BRK
    runs { baseN with pbr := 0x12, pc := 0x3456 } [0x00, 0xEA] [(0x00FFE6, 0x00), (0x00FFE7, 0x90)]
      [(0x0001FF, 0x12), (0x0001FE, 0x34), (0x0001FD, 0x58), (0x0001FC, 0x00)]
      (fun s => { s with sp := 0x01FB, pbr := 0x00, pc := 0x9000, p := 0x04 }) = true ∧
    -- TG18, BRK
    runs { baseE with dbr := 0x7E, pc := 0x0300, p := 0x3B } [0x00, 0xEA] [(0x00FFFE, 0x00), (0x00FFFF, 0xC0)]
      [(0x0001FF, 0x03), (0x0001FE, 0x02), (0x0001FD, 0x3B)]
      (fun s => { s with sp := 0x01FC, dbr := 0x00, pc := 0xC000, p := 0x37 }) = true ∧
    -- TG19, COP
    runs { baseE with pc := 0x0300 } [0x02, 0x05] [(0x00FFF4, 0x00), (0x00FFF5, 0xC0)] [(0x0001FF, 0x03),
      (0x0001FE, 0x02), (0x0001FD, 0x30)] (fun s => { s with sp := 0x01FC, pc := 0xC000, p := 0x34 }) = true ∧
    -- TG20, COP
    runs { baseN with pbr := 0x01, pc := 0x8000, p := 0x09 } [0x02, 0x7F] [(0x00FFE4, 0x34), (0x00FFE5, 0x12)]
      [(0x0001FF, 0x01), (0x0001FE, 0x80), (0x0001FD, 0x02), (0x0001FC, 0x09)]
      (fun s => { s with sp := 0x01FB, pbr := 0x00, pc := 0x1234, p := 0x05 }) = true ∧
    -- TG21, RTI
    runs { baseN with sp := 0x01FB, pc := 0x9000, p := 0x04 } [0x40] [(0x0001FC, 0x00), (0x0001FD, 0x58),
      (0x0001FE, 0x34), (0x0001FF, 0x12)] [] (fun s => { s with sp := 0x01FF, pbr := 0x12, pc := 0x3458, p := 0x00 })
      = true ∧
    -- TG22, RTI
    runs { baseE with sp := 0x01FC, pc := 0xC000, p := 0x34 } [0x40] [(0x0001FD, 0xC1), (0x0001FE, 0x02),
      (0x0001FF, 0x03)] [] (fun s => { s with sp := 0x01FF, pc := 0x0302, p := 0xF1 }) = true ∧
    -- TG24, WAI
    runs baseN [0xCB] [] [] (fun s => { s with pc := 0x1001, run := .waiting }) = true ∧
    -- TG25, STP
    runs { baseN with pc := 0x2000 } [0xDB] [] [] (fun s => { s with pc := 0x2001, run := .stopped }) = true := by
  decide +kernel

theorem test_load_store_vectors :
    -- TH01, LDA
    runs { baseM with c := 0x1234 } [0xA9, 0x00] [] [] (fun s => { s with c := 0x1200, pc := 0x1002, p := 0x22 }) =
      true ∧
    -- TH03, LDX
    runs baseN [0xA2, 0x34, 0x12] [] [] (fun s => { s with x := 0x1234, pc := 0x1003 }) = true ∧
    -- TH05, LDY
    runs baseB [0xA0, 0xFF] [] [] (fun s => { s with y := 0x00FF, pc := 0x1002, p := 0xB0 }) = true ∧
    -- TH06, STA
    runs { baseN with c := 0xABCD, dbr := 0x7E, p := 0x02 } [0x8D, 0x00, 0x20] [] [(0x7E2000, 0xCD),
      (0x7E2001, 0xAB)] (fun s => { s with pc := 0x1003 }) = true ∧
    -- TH09, STX
    runs { baseB with x := 0x0042 } [0x86, 0x10] [] [(0x000010, 0x42)] (fun s => { s with pc := 0x1002 }) = true ∧
    -- TH10, STY
    runs { baseN with y := 0xBEEF } [0x8C, 0x00, 0x30] [] [(0x003000, 0xEF), (0x003001, 0xBE)]
      (fun s => { s with pc := 0x1003 }) = true ∧
    -- TH11, STZ
    runs { baseN with d := 0x0100 } [0x64, 0x20] [(0x000120, 0xFF), (0x000121, 0xFF)] [(0x000120, 0x00),
      (0x000121, 0x00)] (fun s => { s with pc := 0x1002 }) = true ∧
    -- TH13, MVN
    runs { baseN with c := 0x0001, x := 0x1000, y := 0x2000 } [0x54, 0x7F, 0x7E] [(0x7E1000, 0xAA),
      (0x7E1001, 0xBB)] [(0x7F2000, 0xAA)] (fun s => { s with c := 0x0000, x := 0x1001, y := 0x2001, dbr := 0x7F }) =
      true := by
  decide +kernel

theorem test_stack_a_vectors :
    -- TJ01, PEA
    runs baseN [0xF4, 0x34, 0x20] [] [(0x0001FF, 0x20), (0x0001FE, 0x34)]
      (fun s => { s with sp := 0x01FD, pc := 0x1003 }) = true ∧
    -- TJ03, PEI
    runs baseN [0xD4, 0x20] [(0x000020, 0x34), (0x000021, 0x12)] [(0x0001FF, 0x12), (0x0001FE, 0x34)]
      (fun s => { s with sp := 0x01FD, pc := 0x1002 }) = true ∧
    -- TJ05, PER
    runs { baseN with pc := 0x8000 } [0x62, 0x05, 0x00] [] [(0x0001FF, 0x80), (0x0001FE, 0x08)]
      (fun s => { s with sp := 0x01FD, pc := 0x8003 }) = true ∧
    -- TJ07, PHA
    runs { baseN with c := 0x1234 } [0x48] [] [(0x0001FF, 0x12), (0x0001FE, 0x34)]
      (fun s => { s with sp := 0x01FD, pc := 0x1001 }) = true ∧
    -- TJ10, PHB
    runs { baseN with dbr := 0x7E } [0x8B] [] [(0x0001FF, 0x7E)] (fun s => { s with sp := 0x01FE, pc := 0x1001 }) =
      true ∧
    -- TJ11, PHD
    runs { baseN with d := 0x1234 } [0x0B] [] [(0x0001FF, 0x12), (0x0001FE, 0x34)]
      (fun s => { s with sp := 0x01FD, pc := 0x1001 }) = true ∧
    -- TJ12, PHD
    runs { baseE with sp := 0x0100, d := 0x1234 } [0x0B] [] [(0x000100, 0x12), (0x0000FF, 0x34)]
      (fun s => { s with sp := 0x01FE, pc := 0x1001 }) = true ∧
    -- TJ13, PHK
    runs { baseN with pbr := 0x03 } [0x4B] [] [(0x0001FF, 0x03)] (fun s => { s with sp := 0x01FE, pc := 0x1001 }) =
      true ∧
    -- TJ14, PHP
    runs { baseN with p := 0xC3 } [0x08] [] [(0x0001FF, 0xC3)] (fun s => { s with sp := 0x01FE, pc := 0x1001 }) =
      true ∧
    -- TJ16, PHX
    runs { baseB with x := 0x0042 } [0xDA] [] [(0x0001FF, 0x42)] (fun s => { s with sp := 0x01FE, pc := 0x1001 }) =
      true := by
  decide +kernel

theorem test_stack_b_vectors :
    -- TJ17, PHY
    runs { baseN with y := 0xBEEF, sp := 0x1FFF } [0x5A] [] [(0x001FFF, 0xBE), (0x001FFE, 0xEF)]
      (fun s => { s with sp := 0x1FFD, pc := 0x1001 }) = true ∧
    -- TJ18, PLA
    runs { baseB with sp := 0x01FE } [0x68] [(0x0001FF, 0x80)] []
      (fun s => { s with c := 0x0080, sp := 0x01FF, pc := 0x1001, p := 0xB0 }) = true ∧
    -- TJ21, PLB
    runs { baseN with sp := 0x01FE, dbr := 0x55 } [0xAB] [(0x0001FF, 0x00)] []
      (fun s => { s with sp := 0x01FF, dbr := 0x00, pc := 0x1001, p := 0x02 }) = true ∧
    -- TJ23, PLD
    runs { baseN with sp := 0x01FD } [0x2B] [(0x0001FE, 0x00), (0x0001FF, 0x20)] []
      (fun s => { s with sp := 0x01FF, d := 0x2000, pc := 0x1001 }) = true ∧
    -- TJ24, PLD
    runs baseE [0x2B] [(0x000100, 0x11), (0x000101, 0x11), (0x000200, 0x00), (0x000201, 0x80)] []
      (fun s => { s with sp := 0x0101, d := 0x8000, pc := 0x1001, p := 0xB0 }) = true ∧
    -- TJ25, PLP
    runs { baseN with x := 0x1234, y := 0xFFFF, sp := 0x01FE } [0x28] [(0x0001FF, 0x30)] []
      (fun s => { s with x := 0x0034, y := 0x00FF, sp := 0x01FF, pc := 0x1001, p := 0x30 }) = true ∧
    -- TJ26, PLP
    runs { baseE with sp := 0x01FE } [0x28] [(0x0001FF, 0xCF)] []
      (fun s => { s with sp := 0x01FF, pc := 0x1001, p := 0xFF }) = true ∧
    -- TJ27, PLX
    runs { baseN with sp := 0x01FD } [0xFA] [(0x0001FE, 0xCD), (0x0001FF, 0xAB)] []
      (fun s => { s with x := 0xABCD, sp := 0x01FF, pc := 0x1001, p := 0x80 }) = true ∧
    -- TJ28, PLY
    runs { baseB with y := 0x0055, sp := 0x01FE } [0x7A] [(0x0001FF, 0x00)] []
      (fun s => { s with y := 0x0000, sp := 0x01FF, pc := 0x1001, p := 0x32 }) = true := by
  decide +kernel

theorem test_transfer_a_vectors :
    -- TK01, TAX
    runs { baseM with c := 0x12FF } [0xAA] [] [] (fun s => { s with x := 0x12FF, pc := 0x1001 }) = true ∧
    -- TK03, TAY
    runs { baseB with c := 0x1200, y := 0x0055 } [0xA8] [] []
      (fun s => { s with y := 0x0000, pc := 0x1001, p := 0x32 }) = true ∧
    -- TK04, TCD
    runs { baseB with c := 0x8000 } [0x5B] [] [] (fun s => { s with d := 0x8000, pc := 0x1001, p := 0xB0 }) = true ∧
    -- TK05, TCS
    runs { baseB with c := 0x1FFF, p := 0x34 } [0x1B] [] [] (fun s => { s with sp := 0x1FFF, pc := 0x1001 }) = true ∧
    -- TK06, TCS
    runs { baseE with c := 0x20F0 } [0x1B] [] [] (fun s => { s with sp := 0x01F0, pc := 0x1001 }) = true ∧
    -- TK07, TDC
    runs { baseB with c := 0xFFFF, d := 0x0080 } [0x7B] [] [] (fun s => { s with c := 0x0080, pc := 0x1001 }) = true ∧
    -- TK08, TSC
    runs baseE [0x3B] [] [] (fun s => { s with c := 0x01FF, pc := 0x1001 }) = true := by
  decide +kernel

theorem test_transfer_b_vectors :
    -- TK09, TSX
    runs baseB [0xBA] [] [] (fun s => { s with x := 0x00FF, pc := 0x1001, p := 0xB0 }) = true ∧
    -- TK11, TXA
    runs { baseX with c := 0x1234, x := 0x0080 } [0x8A] [] [] (fun s => { s with c := 0x0080, pc := 0x1001 }) = true ∧
    -- TK13, TXS
    runs { baseE with x := 0x00FF, sp := 0x0180 } [0x9A] [] [] (fun s => { s with sp := 0x01FF, pc := 0x1001 }) =
      true ∧
    -- TK16, TXY
    runs { baseN with x := 0x8000 } [0x9B] [] [] (fun s => { s with y := 0x8000, pc := 0x1001, p := 0x80 }) = true ∧
    -- TK17, TYA
    runs { baseM with c := 0xAB00 } [0x98] [] [] (fun s => { s with pc := 0x1001, p := 0x22 }) = true ∧
    -- TK18, TYX
    runs { baseB with x := 0x0055 } [0xBB] [] [] (fun s => { s with x := 0x0000, pc := 0x1001, p := 0x32 }) = true ∧
    -- TK19, XBA
    runs { baseB with c := 0x8000 } [0xEB] [] [] (fun s => { s with c := 0x0080, pc := 0x1001, p := 0xB0 }) = true := by
  decide +kernel

theorem test_interrupt_vectors :
    -- TL01, step
    runs { baseN with dbr := 0x7E, pbr := 0x12, pc := 0x3456, p := 0x09, inputs := [inIrq] } [0xEA] vectorTable
      [(0x0001FF, 0x12), (0x0001FE, 0x34), (0x0001FD, 0x56), (0x0001FC, 0x09)]
      (fun s => { s with sp := 0x01FB, pbr := 0x00, pc := 0x9000, p := 0x05, inputs := [] }) = true ∧
    -- TL02, step
    runs { baseE with dbr := 0x7E, pc := 0x3456, p := 0x3B, inputs := [inIrq] } [0xEA] vectorTable
      [(0x0001FF, 0x34), (0x0001FE, 0x56), (0x0001FD, 0x2B)]
      (fun s => { s with sp := 0x01FC, dbr := 0x00, pc := 0xC000, p := 0x37, inputs := [] }) = true ∧
    -- TL05, step
    runs { baseE with inputs := [inNmi] } [0xEA] vectorTable [(0x0001FF, 0x10), (0x0001FE, 0x00), (0x0001FD, 0x20)]
      (fun s => { s with sp := 0x01FC, pc := 0xD000, p := 0x34, inputs := [] }) = true ∧
    -- TL14, step
    runs { baseE with sp := 0x0180, p := 0x38, inputs := [inReset] } [0xEA] vectorTable []
      (fun s => { s with pc := 0x8000, p := 0x34, inputs := [] }) = true := by
  decide +kernel

/-! ## Assembler syntax (R94 to R102) -/

/-- One line at `$00:1000`, with 8-bit accumulator and 16-bit index immediates and two labels, one of them external. -/
def line (text : String) : Except AsmError (List Byte) :=
  (assembleLine { acc8 := true, index8 := false }
    [{ name := "TARGET", value := 0x1010, external := false }, { name := "EXT", value := 0x20, external := true }]
    0x001000 text.toList).map (·.2)

/-- A line assembles to these bytes. -/
def gives (text : String) (bytes : List Byte) : Bool :=
  match line text with
  | .ok b => decide (b = bytes)
  | .error _ => false

/-- A line is refused for this reason. -/
def rejects (text : String) (why : AsmError) : Bool :=
  match line text with
  | .ok _ => false
  | .error e => decide (e = why)

/-- The matrix of mnemonics and the table of the decoder give every opcode the same number of operand bytes (R82, R85). -/
theorem test_matrix_lengths :
    matrix.length = 256 ∧ [(true, false), (false, true)].all (fun w =>
      decide (matrix.map (fun cell => cell.2.bytes { acc8 := w.1, index8 := w.2 }) =
        opcodeTable.map (operandBytes w.1 w.2))) = true := by decide +kernel

/-- The listing of an instruction, with these operand bytes as far as it has any, assembles to its bytes. -/
def listingAssembles (narrow : Bool) (op : Nat) (operand : List Byte) : Bool :=
  let widths : Widths := { acc8 := narrow, index8 := narrow }
  let bytes : List Byte := (BitVec.ofNat 8 op :: operand).take (instrLength narrow narrow (BitVec.ofNat 8 op))
  match assembleLine widths [] 0x01FFF0 (listing widths 0x01FFF0 bytes) with
  | .ok (_, b) => decide (b = bytes)
  | .error _ => false

/-- It does so for an opcode of every format, with long and with short operands (R83, R95, R98, R100). -/
theorem test_listing_assembles :
    [0x18, 0x0A, 0x00, 0xA9, 0xA2, 0xF4, 0xF0, 0x62, 0xA5, 0xD4, 0xB5, 0xB6, 0xB2, 0xB1, 0xA1, 0xA7, 0xB7, 0xA3, 0xB3,
      0xAD, 0xBD, 0xB9, 0x6C, 0x7C, 0xDC, 0xAF, 0x5C, 0x22, 0xBF, 0x54].all (fun op =>
      listingAssembles true op [0x56, 0x34, 0x12] && listingAssembles false op [0x78, 0x00, 0x00]) = true := by
  decide +kernel

/-- The spellings of R95, PEA and PEI among them. -/
theorem test_operand_spellings :
    (gives " CLC" [0x18] && gives " ASL" [0x0A] && gives " ASL A" [0x0A] && gives " LDA #$20" [0xA9, 0x20] &&
      gives " LDX #$1234" [0xA2, 0x34, 0x12] && gives " LDA $20" [0xA5, 0x20] && gives " LDA $20,X" [0xB5, 0x20] &&
      gives " LDX $20,Y" [0xB6, 0x20] && gives " LDA ($20)" [0xB2, 0x20] && gives " LDA ($20),Y" [0xB1, 0x20] &&
      gives " LDA ($20,X)" [0xA1, 0x20] && gives " LDA [$20]" [0xA7, 0x20] && gives " LDA [$20],Y" [0xB7, 0x20] &&
      gives " LDA $1234" [0xAD, 0x34, 0x12] && gives " LDA $1234, X" [0xBD, 0x34, 0x12] &&
      gives " LDA $FEDCBA" [0xAF, 0xBA, 0xDC, 0xFE] && gives " LDA $20,S" [0xA3, 0x20] &&
      gives " LDA ($20,S),Y" [0xB3, 0x20] && gives " BEQ TARGET" [0xF0, 0x0E] &&
      gives " BRL TARGET" [0x82, 0x0D, 0x00] &&
      gives " JMP ($2034)" [0x6C, 0x34, 0x20] && gives " JSR ($2034,X)" [0xFC, 0x34, 0x20] &&
      gives " JML [$2034]" [0xDC, 0x34, 0x20] && gives " MVN #$20,#$34" [0x54, 0x34, 0x20] &&
      gives " MVP $20,$34" [0x44, 0x34, 0x20] &&
      gives " PEA $2034" [0xF4, 0x34, 0x20] && gives " PEI ($20)" [0xD4, 0x20]) = true := by decide +kernel

/-- Aliases (R96), byte selection (R97), forced sizes (R98), expressions and fields (R94). -/
theorem test_source_lines :
    (gives " BLT TARGET" [0x90, 0x0E] && gives " SWA" [0xEB] && gives " dea" [0x3A] &&
      gives " JSR $123456" [0x22, 0x56, 0x34, 0x12] &&
      gives " JMP [$2034]" [0xDC, 0x34, 0x20] && gives " JML $1234" [0x5C, 0x34, 0x12, 0x00] &&
      gives " LDX #$01020304" [0xA2, 0x04, 0x03] && gives " LDX #>$01020304" [0xA2, 0x03, 0x02] &&
      gives " LDX #^$01020304" [0xA2, 0x02, 0x01] && gives " LDA #<$01020304" [0xA9, 0x04] &&
      gives " MVN #>$20,#$34" [0x54, 0x34, 0x00] && gives " MVN #$20,#^$7E1010" [0x54, 0x7E, 0x20] &&
      gives " LDA #0-1" [0xA9, 0xFF] && gives " LDX #0-2" [0xA2, 0xFE, 0xFF] &&
      gives " LDA $0203" [0xAD, 0x03, 0x02] && gives " LDA |$010203" [0xAD, 0x03, 0x02] &&
      gives " LDA !$20" [0xAD, 0x20, 0x00] && gives " LDA >$20" [0xAF, 0x20, 0x00, 0x00] &&
      gives " LDA <$1234" [0xA5, 0x34] && gives " LDA $20,Y" [0xB9, 0x20, 0x00] && gives " LDA EXT" [0xAD, 0x20, 0x00] &&
      gives "loop LdA TARGET+2-$1 comment" [0xAD, 0x11, 0x10] && gives " XCE comment" [0xFB] && gives "* comment" [] &&
      gives "" [] && gives "; comment" [] && gives "loop:" [] && gives " BRK" [0x00] && gives " WDM" [0x42, 0x00]) = true := by
  decide +kernel

/-- What is not an instruction: CMA, which has no opcode (R96), modes a mnemonic has not, a branch too far (R88), and
log 35's choices for banks, for an external address and for text after an operation code whose operand may be absent. -/
theorem test_rejected_lines :
    (rejects " CMA" .unknownOperation && rejects " CMP A" .noSuchMode && rejects " STX $20,X" .noSuchMode &&
      rejects " LDA <$20,Y" .noSuchMode && rejects " BEQ $2000" .outOfRange && rejects " LDA NOWHERE" .unknownLabel &&
      rejects " MVN $120,$34" .outOfRange && rejects " LDA (EXT),Y" .noSuchMode &&
      rejects " STX EXT,Y" .noSuchMode && rejects " ASL comment" .unknownLabel && rejects " LDA #" .badSyntax &&
      rejects "1abel CLC" .badSyntax) = true := by decide +kernel

/-- The width directives change the bytes of an immediate and nothing else (R99). -/
theorem test_width_directives :
    (match assemble [] { acc8 := true, index8 := true } 0x001000
        [" LDA #$12", " .al", " LDA #$1234", " .I16", " LDY #1", " .as", " LDA #2", " BRA $1000"] with
      | .ok b => decide (b = [0xA9, 0x12, 0xA9, 0x34, 0x12, 0xA0, 0x01, 0x00, 0xA9, 0x02, 0x80, 0xF4])
      | .error _ => false) = true := by decide +kernel

/-! ## Steps, by hand from the rules -/

/-- R190: a taken BNE, target `$1002 - 3`. R248, V16: the first byte of the corrected MVP example. -/
theorem test_bne_and_mvp :
    runs baseN [0xD0, 0xFD] [] [] (fun s => { s with pc := 0x0FFF }) = true ∧
    runs { baseN with c := 0x0002, x := 0x0202, y := 0x0002 } [0x44, 0x00, 0x00] [(0x000202, 0x33)] [(0x000002, 0x33)]
      (fun s => { s with c := 0x0001, x := 0x0201, y := 0x0001 }) = true := by
  decide +kernel

/-- R308, R310: ABORT in native mode, PC as the return address; without ABORT_SUPPORTED the event is not latched. -/
theorem test_abort :
    runs { baseN with params := { Config.defaults with abortSupported := true }, inputs := [inAbort] } [0xEA]
      [(0x00FFE9, 0xB0)] [(0x0001FF, 0x00), (0x0001FE, 0x10), (0x0001FD, 0x00), (0x0001FC, 0x00)]
      (fun s => { s with pc := 0xB000, p := 0x04, sp := 0x01FB, inputs := [] }) = true ∧
    runs { baseN with inputs := [inAbort] } [0xEA] [] [] (fun s => { s with pc := 0x1001, inputs := [] }) = true := by
  decide +kernel

/-- R64, R69: JSL pushes PBR before it fetches its bank byte: a push onto that byte changes the bank. -/
theorem test_jsl_late_bank_byte :
    nextOf (exec (.jsl 0x022000) (loaded { baseN with sp := 0x1003, pbr := 0x00 } [0x22, 0x00, 0x20, 0x02] [])) =
      some { poke [(0x001003, 0x00), (0x001002, 0x10), (0x001001, 0x03)]
          (loaded { baseN with sp := 0x1003 } [0x22, 0x00, 0x20, 0x02] []) with
        sp := 0x1000, pc := 0x2000, pbr := 0x00 } := by
  decide +kernel

/-- R66, R61: INC abs at 16 bits reads low then high and writes high then low, all under memory lock (TO03). -/
theorem test_inc_accesses :
    (accesses (.incDir 0x10) { baseN with d := 0x0200 }).map (fun a => (a.write, a.lock, a.addr)) =
      [(false, false, 0x001000), (false, false, 0x001001), (false, true, 0x000210), (false, true, 0x000211),
        (true, true, 0x000211), (true, true, 0x000210)] := by
  decide +kernel

/-! ## Hypotheses that are met -/

theorem test_witness_DecodeOfEncode :
    Instr.wellFormed true true (.ldaImm 0x00FF) = true ∧ Instr.wellFormed true false (.ldxImm 0xFFFF) = true := by
  decide

theorem test_witness_EncodeOfDecode :
    decode false true [0xA9, 0xFF, 0xFF, 0xEA] = .ok (.ldaImm 0xFFFF, [0xEA]) := by
  decide +kernel

/-- Code that wraps at the end of its bank (R81), with an IRQ that `i` masks. -/
def wrappedCode : State :=
  loaded { baseN with pbr := 0x12, pc := 0xFFFD, p := 0x04, inputs := [inIrq] } [0x22, 0x56, 0x34, 0x20] []

theorem bytesAtPc_wrappedCode : bytesAtPc wrappedCode [0x22, 0x56, 0x34, 0x20] := by
  intro n b h
  rcases n with _ | _ | _ | _ | n <;> simp at h <;> subst h <;> decide +kernel

theorem test_witness_StepRunsDecodedInstruction :
    Undisturbed wrappedCode ∧ bytesAtPc wrappedCode [0x22, 0x56, 0x34, 0x20] ∧
    decode (getFlag wrappedCode.p .m) (getFlag wrappedCode.p .x) [0x22, 0x56, 0x34, 0x20] =
      .ok (.jsl 0x203456, []) :=
  ⟨by unfold Undisturbed; decide +kernel, bytesAtPc_wrappedCode, by decide +kernel⟩

theorem test_witness_MemoryIsCanonical :
    Memory.wf (poke [(0xFFFFFF, 0x01), (0x000000, 0xFF)] baseN).mem = true ∧
    Memory.wf { poke [(0xFFFFFF, 0x01), (0x000000, 0xFF)] baseN with c := 0x0001 }.mem = true ∧
    ∀ a : Addr, (poke [(0xFFFFFF, 0x01), (0x000000, 0xFF)] baseN).read a =
      { poke [(0xFFFFFF, 0x01), (0x000000, 0xFF)] baseN with c := 0x0001 }.read a :=
  ⟨by decide +kernel, by decide +kernel, fun _ => rfl⟩

/-- A push in native and one in emulation mode at the lower end of page 1, and an XCE each way. -/
theorem test_witness_StepKeepsInvariant :
    (Inv (loaded baseN [0x48] []) ∧ step (loaded baseN [0x48] []) = .next (after (step (loaded baseN [0x48] [])))) ∧
    (Inv (loaded { baseE with sp := 0x0100 } [0x0B] []) ∧
      step (loaded { baseE with sp := 0x0100 } [0x0B] []) =
        .next (after (step (loaded { baseE with sp := 0x0100 } [0x0B] [])))) :=
  ⟨⟨by decide +kernel, eq_next_after (by decide +kernel)⟩, by decide +kernel, eq_next_after (by decide +kernel)⟩

theorem test_witness_EmulationFlagWriters :
    (exec .xce { baseN with p := 0x01 } = .next (after (exec .xce { baseN with p := 0x01 })) ∧
      (after (exec .xce { baseN with p := 0x01 })).e ≠ baseN.e) ∧
    (step { baseN with inputs := [inReset] } = .next (after (step { baseN with inputs := [inReset] })) ∧
      (after (step { baseN with inputs := [inReset] })).e ≠ baseN.e) ∧
    (step (loaded baseE [0xFB] []) = .next (after (step (loaded baseE [0xFB] []))) ∧
      (after (step (loaded baseE [0xFB] []))).e ≠ baseE.e) :=
  ⟨⟨rfl, by decide +kernel⟩, ⟨rfl, by decide +kernel⟩, eq_next_after (by decide +kernel), by decide +kernel⟩

/-- One writer for every clause. -/
theorem test_witness_SpecialRegisterWriters :
    (after (exec .tcd { baseN with c := 0x0001 })).d ≠ baseN.d ∧
    (after (exec .plb (poke [(0x000200, 0x7E)] baseN))).dbr ≠ baseN.dbr ∧
    (after (exec (.mvn 0x7F 0x00) baseN)).dbr ≠ baseN.dbr ∧
    (after (exec (.cop 0x00) { baseE with dbr := 0x7E })).dbr ≠ 0x7E ∧
    (after (exec (.jmlLong 0x010000) baseN)).pbr ≠ baseN.pbr ∧
    (after (exec (.brk 0x00) { baseN with pbr := 0x01 })).pbr ≠ 0x01 ∧
    (after (exec .rti (poke [(0x000203, 0x01)] baseN))).pbr ≠ baseN.pbr ∧
    ((after (exec .wai baseN)).run ≠ .running ∧ (after (exec .stp baseN)).run ≠ .running) ∧
    highByte (after (exec .tdc { baseM with d := 0x0100 })).c ≠ highByte baseM.c ∧
    highByte (after (exec (.mvp 0x00 0x00) baseM)).c ≠ highByte baseM.c := by
  decide +kernel

theorem test_witness_OnlyListedBytesChange :
    step (loaded baseN [0x8D, 0xFF, 0xFF] []) = .next (after (step (loaded baseN [0x8D, 0xFF, 0xFF] []))) ∧
    writtenAddrs (stepAccesses (loaded baseN [0x8D, 0xFF, 0xFF] [])) = [0x00FFFF, 0x010000] :=
  ⟨eq_next_after (by decide +kernel), by decide +kernel⟩

theorem test_witness_ModifyAccessOrder :
    (.incAbsX 0xFFFF, .absX 0xFFFF) ∈
      ((modifyForms 0xFF 0xFFFF).map fun f => (f.1, f.2.1)) ++ tsbForms 0xFF 0xFFFF ++ trbForms 0xFF 0xFFFF := by
  decide +kernel

/-- ABORT, NMI and IRQ, each first of those pending. -/
def aborted : State :=
  { baseN with params := { Config.defaults with abortSupported := true }, inputs := [inAbort], nmiPending := true }

theorem test_witness_HardwareInterrupts :
    (aborted.run = .running ∧ (inputsNow aborted).reset = false ∧ aborted.params.intPriority = .abortNmiIrq ∧
      (latchInputs aborted).abortPending = true) ∧
    ((latchInputs { baseE with inputs := [inNmi] }).abortPending = false ∧
      (latchInputs { baseE with inputs := [inNmi] }).nmiPending = true) ∧
    ((latchInputs { baseN with inputs := [inIrq] }).abortPending = false ∧
      (latchInputs { baseN with inputs := [inIrq] }).nmiPending = false ∧
      (inputsNow { baseN with inputs := [inIrq] }).irq = true ∧ getFlag baseN.p .i = false) := by
  decide +kernel

/-- The state that an RTI leaves after the entry of a source. -/
def returned (src : Source) (ret : Word) (s : State) : State := after (exec .rti (interruptEntry src ret s))

theorem test_witness_RtiUndoesEntry :
    (EmulationWidths baseN ∧ EmulationStack baseN ∧
      exec .rti (interruptEntry .irq 0xFFFF baseN) = .next (returned .irq 0xFFFF baseN)) ∧
    (EmulationWidths { baseE with sp := 0x0100 } ∧ EmulationStack { baseE with sp := 0x0100 } ∧
      exec .rti (interruptEntry .brk 0x0000 { baseE with sp := 0x0100 }) =
        .next (returned .brk 0x0000 { baseE with sp := 0x0100 })) :=
  ⟨⟨by decide, by decide, eq_next_after (by decide +kernel)⟩, by decide, by decide, eq_next_after (by decide +kernel)⟩

/-- A waiting processor: NMI, IRQ with `i = 0`, IRQ with `i = 1`, nothing. -/
def waiting (p : Byte) (now : List Inputs) : State := { baseN with run := .waiting, p := p, inputs := now }

theorem test_witness_WaitingStep :
    ((waiting 0x00 [inNmi]).run = .waiting ∧ (inputsNow (waiting 0x00 [inNmi])).reset = false ∧
      (waiting 0x00 [inNmi]).params.intPriority = .abortNmiIrq ∧
      (latchInputs (waiting 0x00 [inNmi])).nmiPending = true) ∧
    ((latchInputs (waiting 0x00 [inIrq])).nmiPending = false ∧ (inputsNow (waiting 0x00 [inIrq])).irq = true ∧
      getFlag (waiting 0x00 [inIrq]).p .i = false) ∧
    ((latchInputs (waiting 0x04 [inIrq])).nmiPending = false ∧ (inputsNow (waiting 0x04 [inIrq])).irq = true ∧
      getFlag (waiting 0x04 [inIrq]).p .i = true) ∧
    ((latchInputs (waiting 0x00 [])).nmiPending = false ∧ (inputsNow (waiting 0x00 [])).irq = false) := by
  decide +kernel

/-- Three steps, of which two have inputs, one of them an NMI event. -/
def stopped : State := { baseN with run := .stopped, inputs := [inIrq, inNmi] }

theorem test_witness_StoppedUntilReset :
    stopped.run = .stopped ∧ ∀ inp ∈ stopped.inputs.take 3, inp.reset = false :=
  ⟨rfl, by decide⟩

theorem test_witness_ResetStep : (inputsNow { baseN with inputs := [inReset] }).reset = true := by decide

theorem test_witness_ReturnFromInterrupt : baseN.e = false ∧ baseE.e = true := by decide

/-- Page wrap; none in native mode, and none in emulation mode with `DL ≠ 0`. -/
theorem test_witness_DirectLocations :
    (({ baseE with d := 0xFF00 } : State).e = true ∧ lowByte ({ baseE with d := 0xFF00 } : State).d = 0x00) ∧
    baseN.e = false ∧ lowByte ({ baseE with d := 0xFFFF } : State).d ≠ 0x00 := by
  decide

theorem test_witness_AdcBinary :
    (.adcImm 0xFFFF, .imm 0xFFFF) ∈ adcForms 0xFFFF 0xFF 0xFFFF 0xFFFFFF ∧ getFlag baseN.p .d = false := by
  decide +kernel

theorem test_witness_SbcBinary :
    (.sbcLongX 0xFFFFFF, .mem (.longX 0xFFFFFF)) ∈ sbcForms 0xFFFF 0xFF 0xFFFF 0xFFFFFF ∧
    getFlag baseM.p .d = false := by
  decide +kernel

theorem test_witness_OverflowAndComplement :
    truncTo .w8 0x00FF = 0x00FF ∧ truncTo .w8 0x0080 = 0x0080 ∧ truncTo .w16 0xFFFF = 0xFFFF := by
  decide

/-- The largest decimal operands, at 8 and at 16 bits. -/
theorem test_witness_AdcDecimal :
    (.adcImm 0x0099, .imm 0x0099) ∈ adcForms 0x0099 0x00 0x0000 0x000000 ∧
    getFlag ({ baseM with p := 0x28 } : State).p .d = true ∧ validBcd .w8 0x0099 = true ∧
    validBcd .w16 0x9999 = true := by
  decide +kernel

theorem test_witness_SbcDecimal :
    (.sbcImm 0x9999, .imm 0x9999) ∈ sbcForms 0x9999 0x00 0x0000 0x000000 ∧
    getFlag ({ baseN with p := 0x08 } : State).p .d = true ∧ validBcd .w16 0x9999 = true ∧
    validBcd .w16 0x0000 = true := by
  decide +kernel

theorem test_witness_Compares :
    ∀ form ∈ [(((.cmpImm 0x00FF, .imm 0x00FF), wm baseB, baseB.c) : (Instr × Operand) × Width × Word),
        ((.cpxImm 0x00FF, .imm 0x00FF), wx baseB, baseB.x), ((.cpyDir 0xFF, .mem (.dir 0xFF)), wx baseB, baseB.y)],
      form ∈ ((cmpForms 0x00FF 0xFF 0xFFFF 0xFFFFFF).map fun f => (f, wm baseB, baseB.c)) ++
        ((cpxForms 0x00FF 0xFF 0xFFFF).map fun f => (f, wx baseB, baseB.x)) ++
        ((cpyForms 0x00FF 0xFF 0xFFFF).map fun f => (f, wx baseB, baseB.y)) := by
  decide +kernel

theorem test_witness_LogicInstructions :
    ((((.oraImm 0xFFFF, .imm 0xFFFF) : Instr × Operand), fun p q => p || q) :
        (Instr × Operand) × (Bool → Bool → Bool)) ∈
      ((andForms 0xFFFF 0xFF 0xFFFF 0xFFFFFF).map fun f => (f, fun p q => p && q)) ++
      ((eorForms 0xFFFF 0xFF 0xFFFF 0xFFFFFF).map fun f => (f, fun p q => p != q)) ++
      ((oraForms 0xFFFF 0xFF 0xFFFF 0xFFFFFF).map fun f => (f, fun p q => p || q)) :=
  List.mem_append_right _ (List.mem_map.mpr ⟨_, by decide +kernel, rfl⟩)

theorem test_witness_BitTest : (.bitAbsX 0xFFFF, .mem (.absX 0xFFFF)) ∈ bitMemoryForms 0xFF 0xFFFF := by
  decide +kernel

theorem test_witness_TestAndChangeBits :
    (((.tsbAbs 0xFFFF, .abs 0xFFFF), true) : (Instr × Mode) × Bool) ∈
      ((trbForms 0xFF 0xFFFF).map fun f => (f, false)) ++ ((tsbForms 0xFF 0xFFFF).map fun f => (f, true)) := by
  decide +kernel

theorem test_witness_ShiftsAndSteps :
    (.rorAcc, .ror) ∈ accumulatorForms ∧ (.rolAbsX 0xFFFF, .absX 0xFFFF, .rol) ∈ modifyForms 0xFF 0xFFFF := by
  decide +kernel

theorem test_witness_Branches : (.bne 0x80, .z, false) ∈ conditionalBranches 0x80 := by decide +kernel

/-- A JSL whose push of PBR falls on its own bank byte, and `wrappedCode`, where it does not. -/
def overlappedCode : State := loaded { baseN with sp := 0x1003, pbr := 0x00 } [0x22, 0x56, 0x34, 0x20] []

theorem bytesAtPc_overlappedCode : bytesAtPc overlappedCode [0x22, 0x56, 0x34, 0x20] := by
  intro n b h
  rcases n with _ | _ | _ | _ | n <;> simp at h <;> subst h <;> decide +kernel

theorem test_witness_LateBankByte :
    (Undisturbed overlappedCode ∧ bytesAtPc overlappedCode (encode true true (.jsl 0x203456)) ∧
      step overlappedCode = .next (after (step overlappedCode)) ∧
      stackAddr overlappedCode.sp = bankAddr overlappedCode.pbr (overlappedCode.pc + 3)) ∧
    (Undisturbed wrappedCode ∧ bytesAtPc wrappedCode (encode true true (.jsl 0x203456)) ∧
      step wrappedCode = .next (after (step wrappedCode)) ∧
      stackAddr wrappedCode.sp ≠ bankAddr wrappedCode.pbr (wrappedCode.pc + 3)) :=
  ⟨⟨by unfold Undisturbed; decide +kernel, bytesAtPc_overlappedCode, eq_next_after (by decide +kernel),
      by decide +kernel⟩,
    by unfold Undisturbed; decide +kernel, bytesAtPc_wrappedCode, eq_next_after (by decide +kernel), by decide +kernel⟩

/-- A call in emulation mode whose pushes wrap in page 1, and a long call at the end of bank 0. -/
theorem test_witness_ReturnsUndoCalls :
    (EmulationStack { baseE with sp := 0x0100 } ∧
      exec (.jsrAbs 0xFFFF) { baseE with sp := 0x0100 } =
        .next (after (exec (.jsrAbs 0xFFFF) { baseE with sp := 0x0100 })) ∧
      exec .rts (after (exec (.jsrAbs 0xFFFF) { baseE with sp := 0x0100 })) =
        .next (after (exec .rts (after (exec (.jsrAbs 0xFFFF) { baseE with sp := 0x0100 }))))) ∧
    (({ baseN with sp := 0x0000 } : State).e = false ∧
      exec (.jsl 0xFFFFFF) { baseN with sp := 0x0000 } =
        .next (after (exec (.jsl 0xFFFFFF) { baseN with sp := 0x0000 })) ∧
      exec .rtl (after (exec (.jsl 0xFFFFFF) { baseN with sp := 0x0000 })) =
        .next (after (exec .rtl (after (exec (.jsl 0xFFFFFF) { baseN with sp := 0x0000 }))))) :=
  ⟨⟨by decide, eq_next_after (by decide +kernel), eq_next_after (by decide +kernel)⟩,
    by decide, eq_next_after (by decide +kernel), eq_next_after (by decide +kernel)⟩

theorem test_witness_FlagInstructions : (.clv, .v, false) ∈ flagInstructions := by decide +kernel

/-- XCE to emulation mode and to native mode. -/
theorem test_witness_XceInstruction :
    (after (exec .xce { baseN with p := 0x01 })).e = true ∧ (after (exec .xce baseE)).e = false := by
  decide +kernel

theorem test_witness_Loads :
    (.ldaImm 0xFFFF, .imm 0xFFFF) ∈ ldaForms 0xFFFF 0xFF 0xFFFF 0xFFFFFF ∧
    (.ldxDirY 0xFF, .mem (.dirY 0xFF)) ∈ ldxForms 0xFFFF 0xFF 0xFFFF ∧
    (.ldyAbsX 0xFFFF, .mem (.absX 0xFFFF)) ∈ ldyForms 0xFFFF 0xFF 0xFFFF := by
  decide +kernel

theorem test_witness_Stores :
    ∀ form ∈ [(((.staLong 0xFFFFFF, .long 0xFFFFFF), wm baseX, baseX.c) : (Instr × Mode) × Width × Word),
        ((.stxDirY 0xFF, .dirY 0xFF), wx baseX, baseX.x), ((.styAbs 0xFFFF, .abs 0xFFFF), wx baseX, baseX.y),
        ((.stzAbsX 0xFFFF, .absX 0xFFFF), wm baseX, 0x0000)],
      form ∈ ((staForms 0xFF 0xFFFF 0xFFFFFF).map fun f => (f, wm baseX, baseX.c)) ++
        ((stxForms 0xFF 0xFFFF).map fun f => (f, wx baseX, baseX.x)) ++
        ((styForms 0xFF 0xFFFF).map fun f => (f, wx baseX, baseX.y)) ++
        ((stzForms 0xFF 0xFFFF).map fun f => (f, wm baseX, 0x0000)) := by
  decide +kernel

theorem test_witness_BlockMoveByte :
    ((.mvp 0xFF 0x00, 0xFFFF) : Instr × Word) ∈ [(.mvn 0xFF 0x00, 1), (.mvp 0xFF 0x00, 0xFFFF)] := by
  decide +kernel

/-- The states of a block move, one after another. -/
def moving (i : Instr) (s : State) : Nat → State
  | 0 => s
  | k + 1 => after (exec i (moving i s k))

theorem test_witness_BlockMoveWhole :
    ((.mvn 0x7F 0x7E, 1) : Instr × Word) ∈ [(.mvn 0x7F 0x7E, 1), (.mvp 0x7F 0x7E, 0xFFFF)] ∧
    getFlag ({ baseN with c := 0xFFFF } : State).p .x = false ∧
    moving (.mvn 0x7F 0x7E) { baseN with c := 0xFFFF } 0 = { baseN with c := 0xFFFF } ∧
    ∀ k, exec (.mvn 0x7F 0x7E) (moving (.mvn 0x7F 0x7E) { baseN with c := 0xFFFF } k) =
      .next (moving (.mvn 0x7F 0x7E) { baseN with c := 0xFFFF } (k + 1)) :=
  ⟨by decide +kernel, by decide, rfl, fun _ => rfl⟩

theorem test_witness_RegisterPushes :
    ((.pha, wm baseX, baseX.c) : Instr × Width × Word) ∈
        [(.pha, wm baseX, baseX.c), (.phx, wx baseX, baseX.x), (.phy, wx baseX, baseX.y),
          (.phb, .w8, extendByte baseX.dbr), (.phk, .w8, extendByte baseX.pbr), (.php, .w8, extendByte baseX.p)] ∧
    wm baseX = .w16 ∧ wx baseX = .w8 := by
  decide +kernel

theorem test_witness_WordPushes :
    ((.per 0xFFFF, BitVec.ofNat 16 (baseE.pc.toNat + 3 + 65535), 3) : Instr × Word × Word) ∈
      [(.pea 0xFFFF, 0xFFFF, 3),
        (.pei 0xFF, joinBytes (baseE.read (inc16 (dp baseE 255))) (baseE.read (dp baseE 255)), 2),
        (.per 0xFFFF, BitVec.ofNat 16 (baseE.pc.toNat + 3 + 65535), 3), (.phd, baseE.d, 1)] := by
  decide +kernel

theorem test_witness_TransfersToIndexDirectAndStack :
    ((.tsx, baseN.sp) : Instr × Word) ∈ [((.tax : Instr), baseN.c), (.tsx, baseN.sp), (.tyx, baseN.y)] ∧
    ((.txy, baseN.x) : Instr × Word) ∈ [((.tay : Instr), baseN.c), (.txy, baseN.x)] ∧
    ((.txs, baseN.x) : Instr × Word) ∈ [((.tcs : Instr), baseN.c), (.txs, baseN.x)] := by
  decide +kernel

theorem test_witness_TransfersToAccumulator :
    ((.tya, baseN.y) : Instr × Word) ∈ [((.txa : Instr), baseN.x), (.tya, baseN.y)] ∧
    ((.tdc, baseN.d) : Instr × Word) ∈ [((.tdc : Instr), baseN.d), (.tsc, baseN.sp)] := by
  decide +kernel

end Sys2Proof.Tests
end

/-! ## The stack primitives (O28) -/

section
namespace Sys2Proof.Machine

/-! Where a push and a pull leave the stack pointer, as a number: page 1 is 256 to 511, and the low byte wraps inside it. -/

/-- The pointer after a push (R140). -/
theorem toNat_pushPointer (e : Bool) (sp : Word) :
    (pushPointer e sp).toNat = if e then 256 + (sp.toNat + 255) % 256 else (sp.toNat + 65535) % 65536 := by
  cases e
  case false =>
    simp only [pushPointer_native, Bool.false_eq_true, if_false, BitVec.toNat_sub, BitVec.reduceToNat]
    omega
  case true =>
    simp only [pushPointer_emulation, if_true, toNat_joinBytes, BitVec.toNat_sub, toNat_lowByte, BitVec.reduceToNat]
    omega

/-- The pointer that a pull reads at (R142). -/
theorem toNat_pullPointer (e : Bool) (sp : Word) :
    (pullPointer e sp).toNat = if e then 256 + (sp.toNat + 1) % 256 else (sp.toNat + 1) % 65536 := by
  cases e
  case false =>
    simp only [pullPointer_native, Bool.false_eq_true, if_false, BitVec.toNat_add, BitVec.reduceToNat]
  case true =>
    simp only [pullPointer_emulation, if_true, toNat_joinBytes, BitVec.toNat_add, toNat_lowByte, BitVec.reduceToNat]
    omega

/-- A push writes memory and S, and no other field. -/
theorem push8_frame (v : Byte) (s : State) :
    push8 v s = { s with mem := (push8 v s).mem, sp := (push8 v s).sp } := rfl

@[simp] theorem push8_read_same (v : Byte) (s : State) : (push8 v s).read (stackAddr s.sp) = v := by
  rw [push8_read, if_pos rfl]

/-- A push changes the byte at the old pointer alone. -/
theorem push8_memoryKept (v : Byte) (s : State) : memoryKept [stackAddr s.sp] s (push8 v s) := by
  intro a ha
  rw [push8_read, if_neg (mt List.mem_singleton.mpr ha)]

/-- Settles O28: what a push and a pull do to memory and the state are `push8_read` and `pull8_eq`; where they leave S is
`toNat_pushPointer` and `toNat_pullPointer`. -/
theorem stackPrimitives : Obligations.StackPrimitives := by
  intro s v
  exact ⟨⟨push8_frame v s, push8_read_same v s, push8_memoryKept v s, toNat_pushPointer s.e s.sp⟩,
    pull8_eq s, toNat_pullPointer s.e s.sp⟩

end Sys2Proof.Machine
end

/-! ## Comparisons (O34) -/

section
namespace Sys2Proof.Machine

/-- A value held at a width is below the width's bound. -/
theorem toNat_lt_of_truncTo_eq {w : Width} {v : Word} (h : truncTo w v = v) : v.toNat < 2 ^ widthBits w := by
  rw [← h, toNat_truncTo]
  exact Nat.mod_lt _ (Nat.two_pow_pos _)

/-- The difference at a width: a borrow comes from the width's own bound, not from bit 16. -/
theorem toNat_truncTo_sub {w : Width} (a : Word) {b : Word} (hb : b.toNat < 2 ^ widthBits w) :
    (truncTo w (a - b)).toNat = (a.toNat + 2 ^ widthBits w - b.toNat) % 2 ^ widthBits w := by
  rw [toNat_truncTo, BitVec.toNat_sub]
  cases w <;> simp only [widthBits] at hb ⊢ <;> omega

/-- A difference inside the width's bound is zero for equal numbers only. -/
theorem add_sub_mod_eq_zero_iff {a b size : Nat} (ha : a < size) (hb : b < size) :
    (a + size - b) % size = 0 ↔ a = b := by
  constructor
  case mpr =>
    rintro rfl
    rw [Nat.add_sub_cancel_left, Nat.mod_self]
  case mp =>
    intro h
    obtain hlt | hle := Nat.lt_or_ge a b
    · rw [Nat.mod_eq_of_lt (by omega)] at h
      omega
    · rw [show a + size - b = a - b + size by omega, Nat.add_mod_right, Nat.mod_eq_of_lt (by omega)] at h
      omega

/-! The flags after a comparison, as numbers (R153). -/

theorem compareFlags_c_iff (w : Width) (a b : Word) (p : Byte) :
    getFlag (compareFlags w a b p) .c = true ↔ b.toNat ≤ a.toNat := by
  rw [getFlag_compareFlags, decide_eq_true_iff]

theorem compareFlags_z_iff {w : Width} {a b : Word} (ha : a.toNat < 2 ^ widthBits w)
    (hb : b.toNat < 2 ^ widthBits w) (p : Byte) :
    getFlag (compareFlags w a b p) .z = true ↔ a.toNat = b.toNat := by
  rw [getFlag_compareFlags, isZeroAt_iff, toNat_truncTo_sub a hb, Nat.mod_mod, add_sub_mod_eq_zero_iff ha hb]

theorem compareFlags_n_iff {w : Width} (a : Word) {b : Word} (hb : b.toNat < 2 ^ widthBits w) (p : Byte) :
    getFlag (compareFlags w a b p) .n = true ↔
      2 ^ (widthBits w - 1) ≤ (a.toNat + 2 ^ widthBits w - b.toNat) % 2 ^ widthBits w := by
  rw [getFlag_compareFlags, msbAt_iff, toNat_truncTo_sub a hb, Nat.mod_mod]

theorem compareFlags_kept (w : Width) (a b : Word) (p : Byte) :
    flagsKept [.v, .m, .x, .d, .i] p (compareFlags w a b p) := by
  intro f hf
  simp only [List.mem_cons, List.not_mem_nil, or_false] at hf
  rcases hf with rfl | rfl | rfl | rfl | rfl <;> rw [getFlag_compareFlags]

/-- The state after a comparison of the register value `reg` with an operand: P and PC alone are written. -/
def compared (w : Width) (reg : Word) (o : Operand) (s : State) : State :=
  { s with
    p := compareFlags w (truncTo w reg) (o.value w s) s.p
    pc := s.pc + BitVec.ofNat 16 (o.length w) }

/-- CMP, CPX and CPY are one comparison, each at the width of its own register (R153 to R155). -/
theorem exec_compareForms (s : State) (v a : Word) (o : Byte) (l : Addr)
    (form : (Instr × Operand) × Width × Word)
    (h : form ∈ ((cmpForms v o a l).map fun f => (f, wm s, s.c)) ++ ((cpxForms v o a).map fun f => (f, wx s, s.x)) ++
      ((cpyForms v o a).map fun f => (f, wx s, s.y))) :
    exec form.1.1 s = .next (compared form.2.1 form.2.2 form.1.2 s) := by
  simp only [List.mem_append, List.mem_map] at h
  obtain (⟨f, hf, rfl⟩ | ⟨f, hf, rfl⟩) | ⟨f, hf, rfl⟩ := h
  · exact (exec_cmpForms v o a l s f hf).trans (readInstr_next ..)
  · exact (exec_cpxForms v o a s f hf).trans (readInstr_next ..)
  · exact (exec_cpyForms v o a s f hf).trans (readInstr_next ..)

/-- Settles O34: the state is `compared`, and its flags are read by the `compareFlags` lemmas, since register and operand
both lie below the width's bound. -/
theorem compares : Obligations.Compares := by
  intro s v a o l form hform w reg b
  have hreg : reg < 2 ^ widthBits w := toNat_lt_of_truncTo_eq (truncTo_truncTo w form.2.2)
  have hb : b < 2 ^ widthBits w := toNat_lt_of_truncTo_eq (truncTo_value form.1.2 w s)
  exact ⟨compared w form.2.2 form.1.2 s, exec_compareForms s v a o l form hform, rfl,
    compareFlags_c_iff .., compareFlags_z_iff hreg hb s.p, compareFlags_n_iff _ hb s.p, compareFlags_kept _ _ _ _⟩

end Sys2Proof.Machine
end

/-! ## What a write to the accumulator, to flags and to a datum leaves (O35 to O37) -/

section
namespace Sys2Proof.Machine

/-! ### Bits of the accumulator -/

/-- The bits inside the width are those of the value. -/
theorem getLsbD_truncTo_of_lt {w : Width} (v : Word) {k : Nat} (hk : k < widthBits w) :
    (truncTo w v).getLsbD k = v.getLsbD k := by
  rw [getLsbD_truncTo, decide_eq_true hk, Bool.true_and]

theorem getLsbD_accAt_of_lt {w : Width} (s : State) {k : Nat} (hk : k < widthBits w) :
    (accAt w s).getLsbD k = s.c.getLsbD k :=
  getLsbD_truncTo_of_lt s.c hk

/-- The accumulator after a write at a width, bit by bit: the bits of the width are the value's, the others are kept
(R11, R30). -/
theorem getLsbD_mergeAcc (w : Width) (old v : Word) (k : Nat) :
    (mergeAcc w old v).getLsbD k = if k < widthBits w then v.getLsbD k else old.getLsbD k := by
  cases w
  case w8 =>
    simp only [mergeAcc, joinBytes, lowByte, highByte, widthBits, BitVec.getLsbD_append, BitVec.getLsbD_setWidth,
      BitVec.getLsbD_extractLsb']
    by_cases hlow : k < 8
    · simp [hlow]
    · by_cases hhigh : k < 16
      · simp [hlow, show k - 8 < 8 by omega, show 8 + (k - 8) = k by omega]
      · simp [hlow, show ¬k - 8 < 8 by omega, BitVec.getLsbD_of_ge old k (by omega)]
  case w16 =>
    by_cases hk : k < 16
    · simp [mergeAcc, widthBits, hk]
    · simp [mergeAcc, widthBits, hk, BitVec.getLsbD_of_ge _ k (show 16 ≤ k by omega)]

/-- A value is zero at a width when the bits of that width are. -/
theorem isZeroAt_iff_getLsbD (w : Width) (v : Word) :
    isZeroAt w v = true ↔ ∀ k, k < widthBits w → v.getLsbD k = false := by
  have hbits : truncTo w v = 0 ↔ ∀ k, (truncTo w v).getLsbD k = false := by
    constructor
    · intro h k
      rw [h]
      exact BitVec.getLsbD_zero
    · intro h
      exact BitVec.eq_of_getLsbD_eq fun k _ => (h k).trans BitVec.getLsbD_zero.symm
  rw [isZeroAt, beq_iff_eq, hbits]
  simp only [getLsbD_truncTo, Bool.and_eq_false_imp, decide_eq_true_iff]

/-- BIT, TRB and TSB test the AND of accumulator and operand: it is zero when no bit of the width is 1 in both
(R163). -/
theorem isZeroAt_and_iff (w : Width) (a b : Word) :
    isZeroAt w (a &&& b) = true ↔ ∀ k, k < widthBits w → ¬(a.getLsbD k = true ∧ b.getLsbD k = true) := by
  simp only [isZeroAt_iff_getLsbD, BitVec.getLsbD_and, ← Bool.and_eq_true, Bool.not_eq_true]

theorem isZeroAt_and_eq_false_iff (w : Width) (a b : Word) :
    isZeroAt w (a &&& b) = false ↔ ∃ k, k < widthBits w ∧ a.getLsbD k = true ∧ b.getLsbD k = true := by
  simp only [← Bool.not_eq_true (isZeroAt _ _), isZeroAt_and_iff, not_forall, not_not, exists_prop]

/-- The bits above the width take no part in the test, whichever side they are on. -/
theorem isZeroAt_truncTo_and (w : Width) (a b : Word) : isZeroAt w (truncTo w a &&& b) = isZeroAt w (a &&& b) := by
  rw [Bool.eq_iff_iff, isZeroAt_and_iff, isZeroAt_and_iff]
  refine forall₂_congr fun k hk => ?_
  rw [getLsbD_truncTo_of_lt a hk]

theorem isZeroAt_and_truncTo (w : Width) (a b : Word) : isZeroAt w (a &&& truncTo w b) = isZeroAt w (a &&& b) := by
  rw [BitVec.and_comm, isZeroAt_truncTo_and, BitVec.and_comm]

/-! ### Flags written and kept -/

/-- Writing a flag outside the list keeps the list. -/
theorem flagsKept_setFlag {fs : List Flag} {f : Flag} (hf : f ∉ fs) (p : Byte) (b : Bool) :
    flagsKept fs p (setFlag p f b) :=
  fun g hg => getFlag_setFlag_of_ne p f g b (ne_of_mem_of_not_mem hg hf)

/-- `SetNZ_w` keeps every flag but n and z. -/
theorem flagsKept_setNZ {fs : List Flag} (hn : .n ∉ fs) (hz : .z ∉ fs) (w : Width) (v : Word) (p : Byte) :
    flagsKept fs p (setNZ w v p) := by
  intro g hg
  rw [getFlag_setNZ, if_neg (ne_of_mem_of_not_mem hg hn), if_neg (ne_of_mem_of_not_mem hg hz)]

/-- `SetNZ_w` writes n and z of the value's low `w` bits. -/
theorem nzOf_truncTo_setNZ (w : Width) (v : Word) (p : Byte) : nzOf w (truncTo w v) (setNZ w v p) := by
  constructor
  · rw [getFlag_setNZ, if_pos rfl, msbAt_truncTo]
  · rw [getFlag_setNZ, if_neg (by decide), if_pos rfl, isZeroAt_iff, toNat_truncTo, Nat.mod_mod]

/-! ### A datum written back -/

/-- A datum read after it was written back is the value's low `w` bits (R138). -/
theorem readData_writeBack {ea : EA} (hne : ea.a1 ≠ ea.a0) (w : Width) (v : Word) (s : State) :
    readData ea w (writeBack ea w v s) = truncTo w v := by
  cases w
  case w8 => simp only [readData, writeBack_read, if_true, truncTo]
  case w16 => simp only [readData, writeBack_read, if_true, if_neg hne, truncTo, joinBytes_high_low]

/-- Writing a datum back changes its own bytes alone. -/
theorem writeBack_memoryKept (ea : EA) (w : Width) (v : Word) (s : State) :
    memoryKept (datumBytes ea w) s (writeBack ea w v s) := by
  intro a ha
  cases w
  case w8 =>
    simp only [datumBytes, List.mem_singleton] at ha
    simp only [writeBack_read, if_neg ha]
  case w16 =>
    simp only [datumBytes, List.mem_cons, List.not_mem_nil, or_false, not_or] at ha
    obtain ⟨h0, h1⟩ := ha
    simp only [writeBack_read, if_neg h0, if_neg h1]

end Sys2Proof.Machine
end

/-! ## AND, EOR and ORA (O35) -/

section
namespace Sys2Proof.Machine

/-- A function on words that combines each bit of its arguments by the truth table `table`. -/
def HasTruthTable (f : Word → Word → Word) (table : Bool → Bool → Bool) : Prop :=
  ∀ a b k, (f a b).getLsbD k = table (a.getLsbD k) (b.getLsbD k)

theorem and_hasTruthTable : HasTruthTable (fun a b => a &&& b) (fun p q => p && q) := fun _ _ _ => BitVec.getLsbD_and

theorem xor_hasTruthTable : HasTruthTable (fun a b => a ^^^ b) (fun p q => p != q) := fun _ _ _ => BitVec.getLsbD_xor

theorem or_hasTruthTable : HasTruthTable (fun a b => a ||| b) (fun p q => p || q) := fun _ _ _ => BitVec.getLsbD_or

/-- The state after `f` combines the accumulator with an operand: C, P and PC alone are written. -/
def combined (f : Word → Word → Word) (w : Width) (o : Operand) (s : State) : State :=
  { s with
    c := mergeAcc w s.c (f (accAt w s) (o.value w s))
    p := setNZ w (f (accAt w s) (o.value w s)) s.p
    pc := s.pc + BitVec.ofNat 16 (o.length w) }

theorem readInstr_logic (f : Word → Word → Word) (w : Width) (o : Operand) (s : State) :
    readInstr w (logic f) o s = .next (combined f w o s) := rfl

/-- AND, EOR and ORA are one instruction, each with the function of its own truth table (R160 to R162). -/
theorem exec_logicForms (s : State) (v a : Word) (o : Byte) (l : Addr)
    (form : (Instr × Operand) × (Bool → Bool → Bool))
    (h : form ∈ ((andForms v o a l).map fun f => (f, fun p q => p && q)) ++
      ((eorForms v o a l).map fun f => (f, fun p q => p != q)) ++
      ((oraForms v o a l).map fun f => (f, fun p q => p || q))) :
    ∃ f, HasTruthTable f form.2 ∧ exec form.1.1 s = .next (combined f (wm s) form.1.2 s) := by
  simp only [List.mem_append, List.mem_map] at h
  obtain (⟨i, hi, rfl⟩ | ⟨i, hi, rfl⟩) | ⟨i, hi, rfl⟩ := h
  · exact ⟨_, and_hasTruthTable, (exec_andForms v o a l s i hi).trans (readInstr_logic ..)⟩
  · exact ⟨_, xor_hasTruthTable, (exec_eorForms v o a l s i hi).trans (readInstr_logic ..)⟩
  · exact ⟨_, or_hasTruthTable, (exec_oraForms v o a l s i hi).trans (readInstr_logic ..)⟩

section
variable {f : Word → Word → Word} {table : Bool → Bool → Bool} {w : Width} (o : Operand) (s : State)

/-- Inside the width each bit of C is its truth table's. -/
theorem getLsbD_combined_of_lt (hf : HasTruthTable f table) {k : Nat} (hk : k < widthBits w) :
    (combined f w o s).c.getLsbD k = table (s.c.getLsbD k) ((o.value w s).getLsbD k) := by
  rw [combined, getLsbD_mergeAcc, if_pos hk, hf, getLsbD_accAt_of_lt s hk]

/-- Above the width C is kept: B at 8 bits. -/
theorem getLsbD_combined_of_le {k : Nat} (hk : widthBits w ≤ k) :
    (combined f w o s).c.getLsbD k = s.c.getLsbD k := by
  rw [combined, getLsbD_mergeAcc, if_neg (Nat.not_lt.mpr hk)]

theorem nzOf_combined : nzOf w (accAt w (combined f w o s)) (combined f w o s).p := by
  rw [accAt, combined, truncTo_mergeAcc]
  exact nzOf_truncTo_setNZ ..

end

/-- Settles O35: the state is `combined`, whose bits inside the width are the truth table's and outside it the old
ones. -/
theorem logicInstructions : Obligations.LogicInstructions := by
  intro s v a o l form hform w b
  obtain ⟨f, hf, hexec⟩ := exec_logicForms s v a o l form hform
  exact ⟨combined f w form.1.2 s, hexec, rfl, fun _ hk => getLsbD_combined_of_lt _ s hf hk,
    fun _ hk => getLsbD_combined_of_le _ s hk, nzOf_combined _ s, flagsKept_setNZ (by decide) (by decide) w _ s.p⟩

end Sys2Proof.Machine
end

/-! ## BIT (O36) -/

section
namespace Sys2Proof.Machine

/-- The state after BIT: P and PC alone are written. -/
def tested (p : Byte) (len : Nat) (s : State) : State :=
  { s with p := p, pc := s.pc + BitVec.ofNat 16 len }

theorem exec_bitImm (v : Word) (s : State) :
    exec (.bitImm v) s =
      .next (tested (bitImmediateFlags (wm s) (accAt (wm s) s) (truncTo (wm s) v) s.p) (1 + widthBytes (wm s)) s) := rfl

theorem exec_bitMemory {o : Byte} {a : Word} {form : Instr × Operand} (h : form ∈ bitMemoryForms o a) (s : State) :
    exec form.1 s =
      .next (tested (bitMemoryFlags (wm s) (accAt (wm s) s) (form.2.value (wm s) s) s.p) (form.2.length (wm s)) s) :=
  (exec_bitMemoryForms o a s form h).trans (readInstr_next ..)

/-- The immediate form writes z alone (R163). -/
theorem bitImmediateFlags_kept (w : Width) (a b : Word) (p : Byte) :
    flagsKept [.n, .v, .m, .x, .d, .i, .c] p (bitImmediateFlags w a b p) :=
  flagsKept_setFlag (by decide) p _

theorem bitImmediateFlags_z_eq_false_iff (w : Width) (a b : Word) (p : Byte) :
    getFlag (bitImmediateFlags w (truncTo w a) (truncTo w b) p) .z = false ↔
      ∃ k, k < widthBits w ∧ a.getLsbD k = true ∧ b.getLsbD k = true := by
  rw [getFlag_bitImmediateFlags, if_pos rfl, isZeroAt_truncTo_and, isZeroAt_and_truncTo, isZeroAt_and_eq_false_iff]

theorem bitMemoryFlags_kept (w : Width) (a b : Word) (p : Byte) :
    flagsKept [.m, .x, .d, .i, .c] p (bitMemoryFlags w a b p) := by
  intro f hf
  simp only [List.mem_cons, List.not_mem_nil, or_false] at hf
  rcases hf with rfl | rfl | rfl | rfl | rfl <;> rw [getFlag_bitMemoryFlags]

theorem bitMemoryFlags_z_eq_false_iff (w : Width) (a b : Word) (p : Byte) :
    getFlag (bitMemoryFlags w (truncTo w a) b p) .z = false ↔
      ∃ k, k < widthBits w ∧ a.getLsbD k = true ∧ b.getLsbD k = true := by
  rw [getFlag_bitMemoryFlags, isZeroAt_truncTo_and, isZeroAt_and_eq_false_iff]

/-- Settles O36: the state is `tested`, with z from the bits that meet; n and v are the operand's two top bits in the
memory forms and not written in the immediate form. -/
theorem bitTest : Obligations.BitTest := by
  intro s v a o w meets
  constructor
  case left =>
    exact ⟨_, exec_bitImm v s, rfl, bitImmediateFlags_z_eq_false_iff w s.c v s.p, bitImmediateFlags_kept _ _ _ _⟩
  case right =>
    intro form hform b
    exact ⟨_, exec_bitMemory hform s, rfl, bitMemoryFlags_z_eq_false_iff w s.c b s.p,
      getFlag_bitMemoryFlags w _ b s.p .n, getFlag_bitMemoryFlags w _ b s.p .v, bitMemoryFlags_kept _ _ _ _⟩

end Sys2Proof.Machine
end

/-! ## TRB and TSB (O37) -/

section
namespace Sys2Proof.Machine

/-- The bits of the old value that are 1 in `a` become `b`: TRB for `b = false` (R164), TSB for `b = true` (R165). -/
def changeBits (a : Word) (b : Bool) : Modify := if b then tsbValue a else trbValue a

theorem getLsbD_changeBits (a : Word) (b : Bool) {w : Width} (p : Byte) (old : Word) {k : Nat}
    (hk : k < widthBits w) :
    (changeBits a b w p old).1.getLsbD k = if a.getLsbD k then b else old.getLsbD k := by
  have hword : k < 16 := by cases w <;> simp only [widthBits] at hk <;> omega
  cases b
  case false =>
    have hclear : (old &&& ~~~a).getLsbD k = (old.getLsbD k && !a.getLsbD k) := by
      rw [BitVec.getLsbD_and, BitVec.getLsbD_not, decide_eq_true hword, Bool.true_and]
    rw [changeBits, if_neg Bool.false_ne_true, trbValue, getLsbD_truncTo_of_lt _ hk, hclear]
    cases a.getLsbD k <;> simp
  case true =>
    rw [changeBits, if_pos rfl, tsbValue, getLsbD_truncTo_of_lt _ hk, BitVec.getLsbD_or]
    cases a.getLsbD k <;> simp

/-- Both write z alone, from the old value (R164, R165). -/
theorem changeBits_flags (a : Word) (b : Bool) (w : Width) (p : Byte) (old : Word) :
    (changeBits a b w p old).2 = setFlag p .z (isZeroAt w (a &&& old)) := by
  cases b <;> rfl

/-- The state after TRB or TSB: memory, P and PC alone are written. -/
def bitsChanged (b : Bool) (mode : Mode) (s : State) : State :=
  let ea := mode.ea s
  let new := changeBits (accAt (wm s) s) b (wm s) s.p (readData ea (wm s) s)
  { s with
    mem := (writeBack ea (wm s) new.1 s).mem
    p := new.2
    pc := s.pc + BitVec.ofNat 16 mode.length }

/-- TRB and TSB are one instruction with the bit that they write. -/
theorem exec_changeForms (s : State) (o : Byte) (a : Word) (form : (Instr × Mode) × Bool)
    (h : form ∈ ((trbForms o a).map fun f => (f, false)) ++ ((tsbForms o a).map fun f => (f, true))) :
    exec form.1.1 s = .next (bitsChanged form.2 form.1.2 s) := by
  simp only [List.mem_append, List.mem_map] at h
  obtain ⟨i, hi, rfl⟩ | ⟨i, hi, rfl⟩ := h
  · exact (exec_trbForms o a s i hi).trans (modifyMemory_next ..)
  · exact (exec_tsbForms o a s i hi).trans (modifyMemory_next ..)

section
variable (b : Bool) (mode : Mode) (s : State)

/-- The datum afterwards is the changed value, since its two bytes have different addresses. -/
theorem readData_bitsChanged :
    readData (mode.ea s) (wm s) (bitsChanged b mode s) =
      truncTo (wm s) (changeBits (accAt (wm s) s) b (wm s) s.p (readData (mode.ea s) (wm s) s)).1 :=
  (readData_congr rfl _ _).trans (readData_writeBack (mode.ea_ne s) _ _ s)

theorem getLsbD_readData_bitsChanged {k : Nat} (hk : k < widthBits (wm s)) :
    (readData (mode.ea s) (wm s) (bitsChanged b mode s)).getLsbD k =
      if s.c.getLsbD k then b else (readData (mode.ea s) (wm s) s).getLsbD k := by
  rw [readData_bitsChanged, getLsbD_truncTo_of_lt _ hk, getLsbD_changeBits _ _ _ _ hk, getLsbD_accAt_of_lt s hk]

theorem bitsChanged_memoryKept : memoryKept (datumBytes (mode.ea s) (wm s)) s (bitsChanged b mode s) :=
  writeBack_memoryKept _ _ _ s

theorem bitsChanged_p :
    (bitsChanged b mode s).p = setFlag s.p .z (isZeroAt (wm s) (accAt (wm s) s &&& readData (mode.ea s) (wm s) s)) :=
  changeBits_flags ..

theorem bitsChanged_z_iff :
    getFlag (bitsChanged b mode s).p .z = true ↔
      ∀ k, k < widthBits (wm s) → ¬(s.c.getLsbD k = true ∧ (readData (mode.ea s) (wm s) s).getLsbD k = true) := by
  rw [bitsChanged_p, getFlag_setFlag_same, accAt, isZeroAt_truncTo_and, isZeroAt_and_iff]

theorem bitsChanged_flagsKept : flagsKept [.n, .v, .m, .x, .d, .i, .c] s.p (bitsChanged b mode s).p := by
  rw [bitsChanged_p]
  exact flagsKept_setFlag (by decide) s.p _

end

/-- Settles O37: the state is `bitsChanged`; the datum reads as `changeBits` says, and z tells whether a bit of the old
datum met the accumulator. -/
theorem testAndChangeBits : Obligations.TestAndChangeBits := by
  intro s o a form hform w ea old
  exact ⟨bitsChanged form.2 form.1.2 s, exec_changeForms s o a form hform, rfl,
    fun _ hk => getLsbD_readData_bitsChanged _ _ s hk, bitsChanged_memoryKept _ _ s, bitsChanged_z_iff _ _ s,
    bitsChanged_flagsKept _ _ s⟩

end Sys2Proof.Machine
end

/-! ## Shifts, rotates, increments and decrements of a datum (O38) -/

section
namespace Sys2Proof.Machine

/-- A value below the width's bound is held at the width. -/
theorem truncTo_eq_of_toNat_lt {w : Width} {v : Word} (h : v.toNat < 2 ^ widthBits w) : truncTo w v = v :=
  BitVec.eq_of_toNat_eq (by rw [toNat_truncTo, Nat.mod_eq_of_lt h])

/-- Writing back the value that a flag has changes nothing. -/
theorem setFlag_getFlag (p : Byte) (f : Flag) : setFlag p f (getFlag p f) = p := by
  apply eq_of_getFlag_eq
  intro g
  rw [getFlag_setFlag]
  split
  case isTrue h => rw [h]
  case isFalse => rfl

theorem flagsKept_trans {fs : List Flag} {p q r : Byte} (hpq : flagsKept fs p q) (hqr : flagsKept fs q r) :
    flagsKept fs p r :=
  fun f hf => (hqr f hf).trans (hpq f hf)

theorem bitNat_lt_two (b : Bool) : bitNat b < 2 := by cases b <;> decide

/-! ### The new value, as a number -/

/-- The shift left at a width drops the bits that leave the width. -/
theorem toNat_truncTo_shiftLeft_one (w : Width) (old : Word) :
    (truncTo w (old <<< 1)).toNat = old.toNat * 2 % 2 ^ widthBits w := by
  rw [toNat_truncTo, BitVec.toNat_shiftLeft, Nat.shiftLeft_eq]
  cases w <;> simp only [widthBits] <;> omega

theorem toNat_shiftRight_one (old : Word) : (old >>> 1).toNat = old.toNat / 2 := by
  rw [BitVec.toNat_ushiftRight, Nat.shiftRight_eq_div_pow]

theorem toNat_lsrValue {w : Width} (p : Byte) {old : Word} (hold : truncTo w old = old) :
    (lsrValue w p old).1.toNat = old.toNat / 2 := by
  rw [lsrValue, hold, toNat_shiftRight_one]

theorem toNat_incValue (w : Width) (p : Byte) (old : Word) :
    (incValue w p old).1.toNat = (old.toNat + 1) % 2 ^ widthBits w := by
  rw [incValue, toNat_truncTo, BitVec.toNat_add]
  cases w <;> simp only [widthBits, BitVec.reduceToNat] <;> omega

theorem toNat_decValue (w : Width) (p : Byte) (old : Word) :
    (decValue w p old).1.toNat = (old.toNat + 2 ^ widthBits w - 1) % 2 ^ widthBits w :=
  toNat_truncTo_sub old (show 1 < 2 ^ widthBits w by cases w <;> decide)

/-- The old carry enters at bit 0, which the shift has left clear (R172). -/
theorem toNat_rolValue (w : Width) (p : Byte) (old : Word) :
    (rolValue w p old).1.toNat = old.toNat * 2 % 2 ^ widthBits w + bitNat (getFlag p .c) := by
  have hc := bitNat_lt_two (getFlag p .c)
  have hword : bitNat (getFlag p .c) % 2 ^ 16 = bitNat (getFlag p .c) := Nat.mod_eq_of_lt (by omega)
  have heven : old.toNat * 2 % 2 ^ widthBits w = 2 ^ 1 * (old.toNat * 2 % 2 ^ widthBits w / 2) := by
    cases w <;> simp only [widthBits] <;> omega
  rw [rolValue, BitVec.toNat_or, toNat_truncTo_shiftLeft_one, BitVec.toNat_ofNat, hword, heven,
    ← Nat.two_pow_add_eq_or_of_lt hc]

/-- The old carry enters at bit `w - 1`, which the shift has left clear (R173). -/
theorem toNat_rorValue {w : Width} (p : Byte) {old : Word} (hold : truncTo w old = old) :
    (rorValue w p old).1.toNat = old.toNat / 2 + bitNat (getFlag p .c) * 2 ^ (widthBits w - 1) := by
  have hc := bitNat_lt_two (getFlag p .c)
  have hlt := toNat_lt_of_truncTo_eq hold
  have hhalf : old.toNat / 2 < 2 ^ (widthBits w - 1) := by
    cases w <;> simp only [widthBits] at hlt ⊢ <;> omega
  have htop : bitNat (getFlag p .c) * 2 ^ (widthBits w - 1) < 2 ^ 16 := by
    cases w <;> simp only [widthBits] <;> omega
  rw [rorValue, hold, BitVec.toNat_or, toNat_shiftRight_one, BitVec.toNat_ofNat, Nat.mod_eq_of_lt htop, Nat.or_comm,
    Nat.mul_comm, ← Nat.two_pow_add_eq_or_of_lt hhalf, Nat.add_comm]

/-- Each operation computes its number from a datum of its width (R170 to R174, R177). -/
theorem Modification.toNat_function (k : Modification) {w : Width} (p : Byte) {old : Word}
    (hold : truncTo w old = old) :
    (k.function w p old).1.toNat = k.result (widthBits w) (bitNat (getFlag p .c)) old.toNat := by
  cases k
  case asl => exact toNat_truncTo_shiftLeft_one w old
  case lsr => exact toNat_lsrValue p hold
  case rol => exact toNat_rolValue w p old
  case ror => exact toNat_rorValue p hold
  case dec => exact toNat_decValue w p old
  case inc => exact toNat_incValue w p old

/-- No operation leaves its width. -/
theorem Modification.result_lt (k : Modification) {w : Width} {cin old : Nat} (hcin : cin < 2)
    (hold : old < 2 ^ widthBits w) : k.result (widthBits w) cin old < 2 ^ widthBits w := by
  cases k
  case asl | dec | inc => exact Nat.mod_lt _ (Nat.two_pow_pos _)
  case lsr => exact (Nat.div_le_self old 2).trans_lt hold
  case rol => cases w <;> simp only [Modification.result, widthBits] <;> omega
  case ror => cases w <;> simp only [Modification.result, widthBits] at hold ⊢ <;> omega

theorem Modification.truncTo_function (k : Modification) {w : Width} (p : Byte) {old : Word}
    (hold : truncTo w old = old) : truncTo w (k.function w p old).1 = (k.function w p old).1 := by
  apply truncTo_eq_of_toNat_lt
  rw [k.toNat_function p hold]
  exact k.result_lt (bitNat_lt_two _) (toNat_lt_of_truncTo_eq hold)

/-! ### The flags -/

/-- The top bit of a datum of its width, as a comparison of numbers. -/
theorem msbAt_eq_decide {w : Width} {v : Word} (hv : truncTo w v = v) :
    msbAt w v = decide (2 ^ (widthBits w - 1) ≤ v.toNat) := by
  rw [Bool.eq_iff_iff, msbAt_iff, decide_eq_true_iff, Nat.mod_eq_of_lt (toNat_lt_of_truncTo_eq hv)]

/-- The low bit of a datum is its parity. -/
theorem getLsbD_zero_eq_decide (v : Word) : v.getLsbD 0 = decide (v.toNat % 2 = 1) := Nat.testBit_zero v.toNat

/-- Every operation writes n and z of its result and c as `Modification.carry` says; for DEC and INC that is the old c,
so their c is written with its own value. -/
theorem Modification.function_flags (k : Modification) {w : Width} (p : Byte) {old : Word}
    (hold : truncTo w old = old) :
    (k.function w p old).2 =
      setNZ w (k.function w p old).1 (setFlag p .c (k.carry (widthBits w) (getFlag p .c) old.toNat)) := by
  cases k
  case asl | rol => rw [Modification.carry, ← msbAt_eq_decide hold]; rfl
  case lsr | ror => rw [Modification.carry, ← getLsbD_zero_eq_decide]; rfl
  case dec | inc => rw [Modification.carry, setFlag_getFlag]; rfl

/-- `q` and `new` are what the operation `k` makes of P = `p` and of the `w`-bit datum `old`. -/
def Modification.Makes (k : Modification) (w : Width) (p : Byte) (old new : Word) (q : Byte) : Prop :=
  new.toNat = k.result (widthBits w) (bitNat (getFlag p .c)) old.toNat ∧
    getFlag q .c = k.carry (widthBits w) (getFlag p .c) old.toNat ∧ nzOf w new q ∧
      flagsKept [.v, .m, .x, .d, .i] p q

/-- What is stored of the new value is all of it, and it comes with its flags. -/
theorem Modification.makes_function (k : Modification) {w : Width} (p : Byte) {old : Word}
    (hold : truncTo w old = old) :
    k.Makes w p old (truncTo w (k.function w p old).1) (k.function w p old).2 := by
  refine ⟨?value, ?carry, ?nz, ?kept⟩
  case value => rw [k.truncTo_function p hold, k.toNat_function p hold]
  case carry => rw [k.function_flags p hold, getFlag_shifted]
  case nz =>
    rw [k.function_flags p hold]
    exact nzOf_truncTo_setNZ ..
  case kept =>
    rw [k.function_flags p hold]
    exact flagsKept_trans (flagsKept_setFlag (by decide) p _) (flagsKept_setNZ (by decide) (by decide) w _ _)

/-! ### The instructions -/

/-- The state after an accumulator form: C, P and PC alone are written. -/
def accumulatorModified (f : Modify) (s : State) : State :=
  { s with
    c := mergeAcc (wm s) s.c (f (wm s) s.p (accAt (wm s) s)).1
    p := (f (wm s) s.p (accAt (wm s) s)).2
    pc := s.pc + 1 }

/-- The state after a memory form: memory, P and PC alone are written. -/
def memoryModified (f : Modify) (mode : Mode) (s : State) : State :=
  { s with
    mem := (writeBack (mode.ea s) (wm s) (f (wm s) s.p (readData (mode.ea s) (wm s) s)).1 s).mem
    p := (f (wm s) s.p (readData (mode.ea s) (wm s) s)).2
    pc := s.pc + BitVec.ofNat 16 mode.length }

theorem accAt_accumulatorModified (f : Modify) (s : State) :
    accAt (wm s) (accumulatorModified f s) = truncTo (wm s) (f (wm s) s.p (accAt (wm s) s)).1 :=
  truncTo_mergeAcc ..

/-- B is kept at 8 bits (R180). -/
theorem highByte_accumulatorModified (f : Modify) {s : State} (h : wm s = .w8) :
    highByte (accumulatorModified f s).c = highByte s.c := by
  rw [accumulatorModified, h, highByte_mergeAcc]

/-- The datum afterwards is the new value, since its two bytes have different addresses. -/
theorem readData_memoryModified (f : Modify) (mode : Mode) (s : State) :
    readData (mode.ea s) (wm s) (memoryModified f mode s) =
      truncTo (wm s) (f (wm s) s.p (readData (mode.ea s) (wm s) s)).1 :=
  (readData_congr rfl _ _).trans (readData_writeBack (mode.ea_ne s) _ _ s)

theorem memoryModified_memoryKept (f : Modify) (mode : Mode) (s : State) :
    memoryKept (datumBytes (mode.ea s) (wm s)) s (memoryModified f mode s) :=
  writeBack_memoryKept _ _ _ s

theorem makes_accumulatorModified (k : Modification) (s : State) :
    k.Makes (wm s) s.p (accAt (wm s) s) (accAt (wm s) (accumulatorModified k.function s))
      (accumulatorModified k.function s).p := by
  rw [accAt_accumulatorModified]
  exact k.makes_function s.p (truncTo_truncTo ..)

theorem makes_memoryModified (k : Modification) (mode : Mode) (s : State) :
    k.Makes (wm s) s.p (readData (mode.ea s) (wm s) s) (readData (mode.ea s) (wm s) (memoryModified k.function mode s))
      (memoryModified k.function mode s).p := by
  rw [readData_memoryModified]
  exact k.makes_function s.p (truncTo_readData ..)

/-- Settles O38: the states are `accumulatorModified` and `memoryModified`, where the old datum has the operation's
width, so that `Modification.makes_function` gives the new one and its flags. -/
theorem shiftsAndSteps : Obligations.ShiftsAndSteps := by
  intro s o a w bits cin flags
  constructor
  case left =>
    intro form hform
    have hexec : exec form.1 s = .next (accumulatorModified form.2.function s) :=
      (exec_accumulatorForms s form hform).trans (modifyAccumulator_next ..)
    exact ⟨_, hexec, rfl, highByte_accumulatorModified _, makes_accumulatorModified form.2 s⟩
  case right =>
    intro form hform ea
    have hexec : exec form.1 s = .next (memoryModified form.2.2.function form.2.1 s) :=
      (exec_modifyForms o a s form hform).trans (modifyMemory_next ..)
    exact ⟨_, hexec, rfl, memoryModified_memoryKept _ _ s, makes_memoryModified form.2.2 form.2.1 s⟩

end Sys2Proof.Machine
end

/-! ## Counting the index registers (O39) -/

section
namespace Sys2Proof.Machine

/-- The word that INX and INY add (R178, R179), or that DEX and DEY add (R175, R176). -/
def countStep (up : Bool) : Word := if up then 0x0001 else 0xFFFF

/-- Adding $FFFF counts down by one inside the width as well, since 2^16 is a multiple of its bound. -/
theorem toNat_truncTo_add_countStep (w : Width) (v : Word) (up : Bool) :
    (truncTo w (v + countStep up)).toNat =
      (v.toNat % 2 ^ widthBits w + if up then 1 else 2 ^ widthBits w - 1) % 2 ^ widthBits w := by
  rw [toNat_truncTo, BitVec.toNat_add]
  cases up
  case false =>
    rw [countStep, if_neg Bool.false_ne_true, if_neg Bool.false_ne_true]
    cases w <;> simp only [widthBits, BitVec.reduceToNat] <;> omega
  case true =>
    rw [countStep, if_pos rfl, if_pos rfl]
    cases w <;> simp only [widthBits, BitVec.reduceToNat] <;> omega

/-- `new` is `old` counted up or down at the width, and `q` has its n and z and the other flags of `p`. -/
def Counted (w : Width) (up : Bool) (old new : Word) (p q : Byte) : Prop :=
  new.toNat = (old.toNat % 2 ^ widthBits w + if up then 1 else 2 ^ widthBits w - 1) % 2 ^ widthBits w ∧
    nzOf w new q ∧ flagsKept [.v, .m, .x, .d, .i, .c] p q

theorem counted_countStep (w : Width) (up : Bool) (v : Word) (p : Byte) :
    Counted w up v (truncTo w (v + countStep up)) p (setNZ w (truncTo w (v + countStep up)) p) := by
  have hnz := nzOf_truncTo_setNZ w (truncTo w (v + countStep up)) p
  rw [truncTo_truncTo] at hnz
  exact ⟨toNat_truncTo_add_countStep w v up, hnz, flagsKept_setNZ (by decide) (by decide) w _ p⟩

/-- INX and DEX write X, P and PC alone. -/
theorem stepX_next (step : Word) (s : State) :
    stepX step s =
      .next { s with
        x := truncTo (wx s) (s.x + step), p := setNZ (wx s) (truncTo (wx s) (s.x + step)) s.p, pc := s.pc + 1 } := by
  simp only [stepX, setX, truncTo_truncTo]
  rfl

/-- INY and DEY write Y, P and PC alone. -/
theorem stepY_next (step : Word) (s : State) :
    stepY step s =
      .next { s with
        y := truncTo (wx s) (s.y + step), p := setNZ (wx s) (truncTo (wx s) (s.y + step)) s.p, pc := s.pc + 1 } := by
  simp only [stepY, setY, truncTo_truncTo]
  rfl

theorem stepX_counts (up : Bool) (s : State) :
    ∃ t, stepX (countStep up) s = .next t ∧ t = { s with x := t.x, p := t.p, pc := s.pc + 1 } ∧
      Counted (wx s) up s.x t.x s.p t.p :=
  ⟨_, stepX_next .., rfl, counted_countStep ..⟩

theorem stepY_counts (up : Bool) (s : State) :
    ∃ t, stepY (countStep up) s = .next t ∧ t = { s with y := t.y, p := t.p, pc := s.pc + 1 } ∧
      Counted (wx s) up s.y t.y s.p t.p :=
  ⟨_, stepY_next .., rfl, counted_countStep ..⟩

/-- Settles O39: INX and DEX are `stepX`, INY and DEY `stepY`, with the two values of `countStep`. -/
theorem indexSteps : Obligations.IndexSteps := fun s =>
  ⟨stepX_counts true s, stepX_counts false s, stepY_counts true s, stepY_counts false s⟩

end Sys2Proof.Machine
end

/-! ## Branches (O40) -/

section
namespace Sys2Proof.Machine

/-- The target as a sum of integers modulo 2^16: PC and 2 are unsigned, the displacement is signed (R131, R88). -/
theorem branchTarget_eq_ofInt (pc : Word) (r : Byte) :
    branchTarget pc r = BitVec.ofInt 16 ((pc.toNat : Int) + 2 + r.toInt) := by
  have hpc : BitVec.ofInt 16 (pc.toNat : Int) = pc := by
    rw [BitVec.ofInt_natCast, BitVec.ofNat_toNat, BitVec.setWidth_eq]
  have htwo : BitVec.ofInt 16 2 = 2 := rfl
  have hr : BitVec.ofInt 16 r.toInt = signExtendByte r := rfl
  rw [BitVec.ofInt_add, BitVec.ofInt_add, hpc, htwo, hr, branchTarget]

/-- A branch whose condition holds writes PC alone, with the target. -/
theorem branch_true (r : Byte) (s : State) :
    branch true r s = .next { s with pc := BitVec.ofInt 16 ((s.pc.toNat : Int) + 2 + r.toInt) } := by
  rw [branch, if_pos rfl, branchTarget_eq_ofInt]

/-- A branch whose condition fails writes PC alone, with the address of the next instruction. -/
theorem branch_false (r : Byte) (s : State) : branch false r s = .next { s with pc := s.pc + 2 } := by
  rw [branch, if_neg Bool.false_ne_true]

/-- BRA is the branch that is always taken (R192). -/
theorem exec_bra (r : Byte) (s : State) : exec (.bra r) s = branch true r s := rfl

/-- Settles O40: BRA is `exec_bra`; a conditional branch is taken or not as its flag has the tested value
(`exec_conditionalBranches`). -/
theorem branches : Obligations.Branches := by
  intro s r
  refine ⟨(exec_bra r s).trans (branch_true r s), fun form hform => ?_⟩
  rw [exec_conditionalBranches r s form hform]
  by_cases htaken : getFlag s.p form.2.1 = form.2.2
  · rw [if_pos htaken, beq_iff_eq.mpr htaken, branch_true]
  · rw [if_neg htaken, beq_eq_false_iff_ne.mpr htaken, branch_false]

end Sys2Proof.Machine
end

/-! ## The flag instructions and REP (O47, O48) -/

section
namespace Sys2Proof.Machine

/-- The byte that `widthSafeMask` keeps has every flag but m and x. -/
theorem getFlag_all_but_widths (f : Flag) : getFlag 0xCF f = !(f == .m || f == .x) := by
  cases f <;> decide

/-- The mask selects what it selects in native mode, and never m or x in emulation mode (R207, R208). -/
theorem getFlag_widthSafeMask (e : Bool) (mask : Byte) (f : Flag) :
    getFlag (widthSafeMask e mask) f = (getFlag mask f && !(e && (f == .m || f == .x))) := by
  cases e
  case false => rw [widthSafeMask, if_neg Bool.false_ne_true, Bool.false_and, Bool.not_false, Bool.and_true]
  case true => rw [widthSafeMask, if_pos rfl, getFlag_and, getFlag_all_but_widths, Bool.true_and]

/-- REP writes P and PC alone. -/
theorem exec_rep (mask : Byte) (s : State) :
    exec (.rep mask) s = .next { s with p := s.p &&& ~~~widthSafeMask s.e mask, pc := s.pc + 2 } := rfl

/-- Settles O48: REP takes its width-safe mask out of P (`exec_rep`), and `getFlag_widthSafeMask` says which flags that
mask selects. -/
theorem repInstruction : Obligations.RepInstruction := by
  intro s mask
  refine ⟨_, exec_rep mask s, rfl, fun f => ?_⟩
  rw [getFlag_and, getFlag_not, getFlag_widthSafeMask]

/-- A flag instruction writes P and PC alone. -/
theorem writeFlag_next (f : Flag) (b : Bool) (s : State) :
    writeFlag f b s = .next { s with p := setFlag s.p f b, pc := s.pc + 1 } := rfl

/-- Settles O47: each of the seven is `writeFlag` with its flag and value (`exec_flagInstructions`). The name
`flagInstructions` is the model's list of them. -/
theorem flagInstructions_write_one_flag : Obligations.FlagInstructions := by
  intro s form hform
  rw [exec_flagInstructions s form hform]
  exact ⟨_, writeFlag_next form.2.1 form.2.2 s, rfl, fun f => getFlag_setFlag s.p form.2.1 f form.2.2⟩

end Sys2Proof.Machine
end

/-! ## NOP, WDM, WAI and STP (O46) -/

section
namespace Sys2Proof.Machine

/-- NOP writes PC alone (R221). -/
theorem exec_nop (s : State) : exec .nop s = .next { s with pc := s.pc + 1 } := rfl

/-- WDM passes over its operand byte, which has no effect (R222). -/
theorem exec_wdm (sig : Byte) (s : State) : exec (.wdm sig) s = .next { s with pc := s.pc + 2 } := rfl

/-- WAI writes PC and the run state: it goes on after the WAI once an interrupt ends the wait (R226). -/
theorem exec_wai (s : State) : exec .wai s = .next { s with pc := s.pc + 1, run := .waiting } := rfl

/-- STP writes PC and the run state (R227). -/
theorem exec_stp (s : State) : exec .stp s = .next { s with pc := s.pc + 1, run := .stopped } := rfl

/-- Settles O46: one equation of `exec` for each of the four instructions. -/
theorem idleInstructions : Obligations.IdleInstructions :=
  fun s sig => ⟨exec_nop s, exec_wdm sig s, exec_wai s, exec_stp s⟩

end Sys2Proof.Machine
end

/-! ## Loads (O51) -/

section
namespace Sys2Proof.Machine

/-! The state after a load: the register, P and PC alone are written (R240 to R242). -/

/-- After LDA: at 8 bits B is kept. -/
def accLoaded (w : Width) (o : Operand) (s : State) : State :=
  { s with
    c := mergeAcc w s.c (o.value w s)
    p := setNZ w (o.value w s) s.p
    pc := s.pc + BitVec.ofNat 16 (o.length w) }

/-- After LDX. -/
def xLoaded (w : Width) (o : Operand) (s : State) : State :=
  { s with
    x := o.value w s
    p := setNZ w (o.value w s) s.p
    pc := s.pc + BitVec.ofNat 16 (o.length w) }

/-- After LDY. -/
def yLoaded (w : Width) (o : Operand) (s : State) : State :=
  { s with
    y := o.value w s
    p := setNZ w (o.value w s) s.p
    pc := s.pc + BitVec.ofNat 16 (o.length w) }

theorem readInstr_lda (w : Width) (o : Operand) (s : State) : readInstr w lda o s = .next (accLoaded w o s) := rfl

/-- The index register takes the operand as it is, since an operand has `w` bits. -/
theorem readInstr_ldx (w : Width) (o : Operand) (s : State) : readInstr w ldx o s = .next (xLoaded w o s) := by
  have hx : setX w (o.value w s) s = { s with x := o.value w s } := by rw [setX, truncTo_value]
  rw [readInstr_next, ldx, hx]
  rfl

theorem readInstr_ldy (w : Width) (o : Operand) (s : State) : readInstr w ldy o s = .next (yLoaded w o s) := by
  have hy : setY w (o.value w s) s = { s with y := o.value w s } := by rw [setY, truncTo_value]
  rw [readInstr_next, ldy, hy]
  rfl

theorem accAt_accLoaded (w : Width) (o : Operand) (s : State) : accAt w (accLoaded w o s) = o.value w s :=
  (truncTo_mergeAcc ..).trans (truncTo_value o w s)

/-- B is kept by an 8-bit LDA (R240). -/
theorem highByte_accLoaded {w : Width} (o : Operand) (s : State) (h : w = .w8) :
    highByte (accLoaded w o s).c = highByte s.c := by
  rw [accLoaded, h, highByte_mergeAcc]

/-- `SetNZ_w` of an operand writes the operand's own n and z. -/
theorem nzOf_setNZ_value (w : Width) (o : Operand) (s : State) (p : Byte) :
    nzOf w (o.value w s) (setNZ w (o.value w s) p) := by
  simpa only [truncTo_value] using nzOf_truncTo_setNZ w (o.value w s) p

/-- Settles O51: the states are `accLoaded`, `xLoaded` and `yLoaded`; in all three n and z are those of the operand
(`nzOf_setNZ_value`) and `SetNZ` keeps the other flags. -/
theorem loads : Obligations.Loads := by
  intro s v a o l
  have hkept (w : Width) (b : Word) : flagsKept [.v, .m, .x, .d, .i, .c] s.p (setNZ w b s.p) :=
    flagsKept_setNZ (by decide) (by decide) w b s.p
  refine ⟨fun form hform => ?lda, fun form hform => ?ldx, fun form hform => ?ldy⟩
  case lda =>
    exact ⟨_, (exec_ldaForms v o a l s form hform).trans (readInstr_lda ..), rfl, accAt_accLoaded _ form.2 s,
      highByte_accLoaded form.2 s, nzOf_setNZ_value _ form.2 s s.p, hkept _ _⟩
  case ldx =>
    exact ⟨_, (exec_ldxForms v o a s form hform).trans (readInstr_ldx ..), rfl, nzOf_setNZ_value _ form.2 s s.p,
      hkept _ _⟩
  case ldy =>
    exact ⟨_, (exec_ldyForms v o a s form hform).trans (readInstr_ldy ..), rfl, nzOf_setNZ_value _ form.2 s s.p,
      hkept _ _⟩

end Sys2Proof.Machine
end

/-! ## Stores (O52) -/

section
namespace Sys2Proof.Machine

/-! ### A datum written -/

section
variable {ea : EA} (w : Width) (v : Word) (s : State)

/-- The low byte stands at the first address, since the high byte is written to another one (R111). -/
theorem writeData_read_low (hne : ea.a1 ≠ ea.a0) : (writeData ea w v s).read ea.a0 = lowByte v := by
  rw [writeData_read]
  cases w
  case w8 => exact if_pos rfl
  case w16 => exact (if_neg hne.symm).trans (if_pos rfl)

theorem writeData_read_high : (writeData ea .w16 v s).read ea.a1 = highByte v := by
  rw [writeData_read]
  exact if_pos rfl

/-- Writing a datum changes its own bytes alone. -/
theorem writeData_memoryKept : memoryKept (datumBytes ea w) s (writeData ea w v s) := by
  intro b hb
  rw [writeData_read]
  cases w
  case w8 => exact if_neg (mt List.mem_singleton.mpr hb)
  case w16 =>
    obtain ⟨h0, h1⟩ : b ≠ ea.a0 ∧ b ≠ ea.a1 := by simpa [datumBytes] using hb
    exact (if_neg h1).trans (if_neg h0)

end

/-! ### The instructions -/

/-- The state after a store: memory and PC alone are written. -/
def stored (w : Width) (v : Word) (mode : Mode) (s : State) : State :=
  { s with
    mem := (writeData (mode.ea s) w v s).mem
    pc := s.pc + BitVec.ofNat 16 mode.length }

/-- STA, STX, STY and STZ are one store, each of its own register or zero at that register's width (R243 to R246). -/
theorem exec_storeForms (s : State) (a : Word) (o : Byte) (l : Addr) (form : (Instr × Mode) × Width × Word)
    (h : form ∈ ((staForms o a l).map fun f => (f, wm s, s.c)) ++ ((stxForms o a).map fun f => (f, wx s, s.x)) ++
      ((styForms o a).map fun f => (f, wx s, s.y)) ++ ((stzForms o a).map fun f => (f, wm s, 0x0000))) :
    exec form.1.1 s = .next (stored form.2.1 form.2.2 form.1.2 s) := by
  simp only [List.mem_append, List.mem_map] at h
  obtain ((⟨f, hf, rfl⟩ | ⟨f, hf, rfl⟩) | ⟨f, hf, rfl⟩) | ⟨f, hf, rfl⟩ := h
  · exact (exec_staForms o a l s f hf).trans (storeInstr_next ..)
  · exact (exec_stxForms o a s f hf).trans (storeInstr_next ..)
  · exact (exec_styForms o a s f hf).trans (storeInstr_next ..)
  · exact (exec_stzForms o a s f hf).trans (storeInstr_next ..)

/-- Settles O52: the state is `stored`, whose memory is that of `writeData` at the mode's effective address. -/
theorem stores : Obligations.Stores := by
  intro s a o l form hform w ea
  have hhigh (h : w = .w16) : (writeData ea w form.2.2 s).read ea.a1 = highByte form.2.2 := by
    rw [h, writeData_read_high]
  exact ⟨stored w form.2.2 form.1.2 s, exec_storeForms s a o l form hform, rfl,
    writeData_read_low w _ s (form.1.2.ea_ne s), hhigh, writeData_memoryKept w _ s⟩

end Sys2Proof.Machine
end

/-! ## Transfers to the accumulator (O60) -/

section
namespace Sys2Proof.Machine

/-- `SetNZ_w` of a value held at the width writes the value's own n and z, and no other flag. -/
theorem nzOf_and_flagsKept_setNZ {w : Width} {v : Word} (hv : truncTo w v = v) (p : Byte) :
    nzOf w v (setNZ w v p) ∧ flagsKept [.v, .m, .x, .d, .i, .c] p (setNZ w v p) := by
  have hnz := nzOf_truncTo_setNZ w v p
  rw [hv] at hnz
  exact ⟨hnz, flagsKept_setNZ (by decide) (by decide) w v p⟩

/-! ### TXA and TYA (R287, R290) -/

/-- The state after TXA or TYA: the accumulator at width `wm`, P and PC alone are written. -/
def accTransferred (v : Word) (s : State) : State :=
  { s with
    c := mergeAcc (wm s) s.c (truncTo (wm s) v)
    p := setNZ (wm s) (truncTo (wm s) v) s.p
    pc := s.pc + 1 }

/-- TXA and TYA are one transfer, each of its own index register. -/
theorem exec_indexToAccumulator (s : State) (form : Instr × Word) (h : form ∈ [(.txa, s.x), (.tya, s.y)]) :
    exec form.1 s = .next (accTransferred form.2 s) := by
  simp only [List.mem_cons, List.not_mem_nil, or_false] at h
  obtain rfl | rfl := h <;> rfl

section
variable (v : Word) (s : State)

theorem accAt_accTransferred : accAt (wm s) (accTransferred v s) = truncTo (wm s) v :=
  (truncTo_mergeAcc ..).trans (truncTo_truncTo ..)

theorem highByte_accTransferred (h : wm s = .w8) : highByte (accTransferred v s).c = highByte s.c := by
  rw [accTransferred, h, highByte_mergeAcc]

end

/-! ### TDC and TSC (R284, R285) -/

/-- TDC and TSC write all of C with the flags of 16 bits, whatever m is. -/
theorem exec_wordToAccumulator (s : State) (form : Instr × Word) (h : form ∈ [(.tdc, s.d), (.tsc, s.sp)]) :
    exec form.1 s = .next { s with c := form.2, p := setNZ .w16 form.2 s.p, pc := s.pc + 1 } := by
  simp only [List.mem_cons, List.not_mem_nil, or_false] at h
  obtain rfl | rfl := h <;> rfl

/-! ### XBA (R292) -/

/-- XBA writes C with its bytes exchanged, and the flags of the new A, which is the old B. -/
theorem exec_xba (s : State) :
    exec .xba s =
      .next { s with
        c := joinBytes (lowByte s.c) (highByte s.c)
        p := setNZ .w8 (extendByte (highByte s.c)) s.p
        pc := s.pc + 1 } := by
  have hxba : exec .xba s = execXba s := rfl
  simp only [hxba, execXba, lowByte_joinBytes]
  rfl

theorem truncTo_w8_extendByte (b : Byte) : truncTo .w8 (extendByte b) = extendByte b :=
  congrArg extendByte (lowByte_extendByte b)

/-- Settles O60: one equation of `exec` for each of the three kinds of transfer; the flags are those of
`nzOf_and_flagsKept_setNZ`, since each value has the width at which `SetNZ` takes it. -/
theorem transfersToAccumulator : Obligations.TransfersToAccumulator := by
  intro s flags
  refine ⟨fun form hform => ?index, fun form hform => ?word, ?xba⟩
  case index =>
    have hacc := accAt_accTransferred form.2 s
    refine ⟨_, exec_indexToAccumulator s form hform, rfl, ?_, highByte_accTransferred form.2 s, ?_⟩
    · rw [hacc, toNat_truncTo]
    · rw [hacc]
      exact nzOf_and_flagsKept_setNZ (truncTo_truncTo ..) s.p
  case word => exact ⟨_, exec_wordToAccumulator s form hform, rfl, nzOf_and_flagsKept_setNZ rfl s.p⟩
  case xba =>
    exact ⟨_, exec_xba s, rfl, lowByte_joinBytes .., highByte_joinBytes ..,
      nzOf_and_flagsKept_setNZ (truncTo_w8_extendByte _) s.p⟩

end Sys2Proof.Machine
end

/-! ## Encoding and decoding (O1 to O6) -/

section
namespace Sys2Proof

open Machine

/-! ### From an instruction to its bytes and back -/

/-- Settles O1: every instruction belongs to one of the seven forms, whose lemma decodes its bytes; the form is found by
evaluating the cell of its opcode, and only the two immediate forms need well-formedness. -/
theorem decodeOfEncode : Obligations.DecodeOfEncode := by
  intro m x i rest hwf
  cases i
  all_goals first
    | exact decode_byte m x _ _ _ rest rfl
    | exact decode_word m x _ _ _ rest rfl
    | exact decode_implied m x _ _ rest rfl
    | exact decode_long m x _ _ _ rest rfl
    | exact decode_immM m x _ _ _ rest rfl hwf
    | exact decode_immX m x _ _ _ rest rfl hwf
    | exact decode_banks m x _ _ _ _ rest rfl

/-! ### From bytes to an instruction and back -/

/-- What the matrix cell of an opcode says of the instructions it makes: when they are well formed, and their bytes
(R82, R83, R85). -/
def Form.Encodes (op : Byte) : Form → Prop
  | .implied i => ∀ m x, i.wellFormed m x = true ∧ encode m x i = [op]
  | .byte f => ∀ m x o, (f o).wellFormed m x = true ∧ encode m x (f o) = [op, o]
  | .word f => ∀ m x v, (f v).wellFormed m x = true ∧ encode m x (f v) = op :: wordBytes v
  | .long f => ∀ m x l, (f l).wellFormed m x = true ∧ encode m x (f l) = op :: longBytes l
  | .immM f => ∀ m x v, (f v).wellFormed m x = immFits m v ∧ encode m x (f v) = op :: immBytes m v
  | .immX f => ∀ m x v, (f v).wellFormed m x = immFits x v ∧ encode m x (f v) = op :: immBytes x v
  | .banks f => ∀ m x dst src, (f dst src).wellFormed m x = true ∧ encode m x (f dst src) = [op, dst, src]

/-- The cells of a list encode to the opcodes from `start` on. -/
def EncodesFrom : Nat → List Form → Prop
  | _, [] => True
  | start, form :: rest => form.Encodes (BitVec.ofNat 8 start) ∧ EncodesFrom (start + 1) rest

theorem EncodesFrom.getElem :
    ∀ {forms : List Form} {start : Nat}, EncodesFrom start forms → ∀ (n : Nat) (h : n < forms.length),
      forms[n].Encodes (BitVec.ofNat 8 (start + n))
  | _ :: _, _, hforms, 0, _ => hforms.1
  | _ :: rest, start, hforms, n + 1, h => by
    have hrest := EncodesFrom.getElem hforms.2 n (Nat.lt_of_succ_lt_succ h)
    rwa [Nat.add_right_comm, Nat.add_assoc] at hrest

/-- Every cell of the matrix holds the constructors whose encoding begins with its opcode: each by evaluation. -/
theorem opcodeTable_encodes : EncodesFrom 0 opcodeTable := by
  and_intros
  all_goals first
    | exact fun _ _ => ⟨rfl, rfl⟩
    | exact fun _ _ _ => ⟨rfl, rfl⟩
    | exact fun _ _ _ _ => ⟨rfl, rfl⟩
    | trivial

theorem formOf_encodes (op : Byte) : (formOf op).Encodes op := by
  have hcell := opcodeTable_encodes.getElem op.toNat (by rw [opcodeTable_length]; exact op.isLt)
  rwa [Nat.zero_add, BitVec.ofNat_toNat, BitVec.setWidth_eq] at hcell

theorem wordBytes_joinBytes (high low : Byte) : wordBytes (joinBytes high low) = [low, high] := by
  simp [wordBytes]

theorem longBytes_bankAddr (bank high low : Byte) :
    longBytes (bankAddr bank (joinBytes high low)) = [low, high, bank] := by
  simp [longBytes]

/-- The value that the decoder reads from immediate bytes fits, and those bytes are its encoding. -/
theorem immFits_immValue (flag : Bool) (o1 o2 : Byte) : immFits flag (immValue flag o1 o2) = true := by
  cases flag <;> simp [immFits, immValue]

theorem immBytes_immValue (flag : Bool) (o1 o2 : Byte) :
    immBytes flag (immValue flag o1 o2) = if flag then [o1] else [o1, o2] := by
  cases flag <;> simp [immBytes, immValue, wordBytes]

/-- The instruction of an opcode is well formed, and its encoding is the opcode and as many of the operand bytes as it
takes. -/
theorem encode_instrOf (m x : Bool) (op o1 o2 o3 : Byte) :
    (instrOf m x op o1 o2 o3).wellFormed m x = true ∧
      encode m x (instrOf m x op o1 o2 o3) = op :: [o1, o2, o3].take (operandBytes m x (formOf op)) := by
  have hcell := formOf_encodes op
  unfold instrOf
  cases hform : formOf op with
  | implied i => rw [hform] at hcell; exact hcell m x
  | byte f => rw [hform] at hcell; exact hcell m x o1
  | word f =>
    rw [hform] at hcell
    simpa [wordBytes_joinBytes, operandBytes] using hcell m x (joinBytes o2 o1)
  | long f =>
    rw [hform] at hcell
    simpa [longBytes_bankAddr, operandBytes] using hcell m x (bankAddr o3 (joinBytes o2 o1))
  | immM f =>
    rw [hform] at hcell
    obtain ⟨hwf, henc⟩ := hcell m x (immValue m o1 o2)
    rw [hwf, henc, immBytes_immValue, immFits_immValue]
    cases m <;> exact ⟨rfl, rfl⟩
  | immX f =>
    rw [hform] at hcell
    obtain ⟨hwf, henc⟩ := hcell m x (immValue x o1 o2)
    rw [hwf, henc, immBytes_immValue, immFits_immValue]
    cases x <;> exact ⟨rfl, rfl⟩
  | banks f => rw [hform] at hcell; exact hcell m x o1 o2

/-- The three bytes that the decoder looks at hold every operand byte that is there. -/
theorem take_three_getD {n : Nat} {ops : List Byte} (h3 : n ≤ 3) (h : n ≤ ops.length) :
    [ops.getD 0 0, ops.getD 1 0, ops.getD 2 0].take n = ops.take n := by
  match n, ops with
  | 0, _ => rfl
  | 1, a :: _ => rfl
  | 2, a :: b :: _ => rfl
  | 3, a :: b :: c :: _ => rfl

/-- Settles O2: the decoder's answer is `instrOf` of the bytes, whose encoding `encode_instrOf` gives. -/
theorem encodeOfDecode : Obligations.EncodeOfDecode := by
  intro m x bs rest i h
  cases bs with
  | nil => cases h
  | cons op ops =>
    obtain ⟨hlen, rfl, rfl⟩ := decode_ok m x op ops rest i h
    obtain ⟨hwf, henc⟩ := encode_instrOf m x op (ops.getD 0 0) (ops.getD 1 0) (ops.getD 2 0)
    refine ⟨hwf, ?_⟩
    rw [henc, take_three_getD (operandBytes_le m x _) hlen, List.cons_append, List.take_append_drop]

/-! ### Every opcode decodes -/

theorem decode_of_length {m x : Bool} {op : Byte} {ops : List Byte}
    (h : operandBytes m x (formOf op) ≤ ops.length) :
    decode m x (op :: ops) =
      .ok (instrOf m x op (ops.getD 0 0) (ops.getD 1 0) (ops.getD 2 0), ops.drop (operandBytes m x (formOf op))) :=
  if_neg (Nat.not_lt.mpr h)

/-- Settles O3: three operand bytes are enough for every form (`operandBytes_le`), and dropping at most three of them
leaves the rest. -/
theorem everyByteSequenceDecodes : Obligations.EveryByteSequenceDecodes := by
  intro m x op o1 o2 o3 rest
  have hle := operandBytes_le m x (formOf op)
  refine ⟨_, _, decode_of_length (hle.trans (by simp)), ?_⟩
  have hdrop : rest = (o1 :: o2 :: o3 :: rest).drop 3 := rfl
  rw [hdrop]
  exact List.drop_suffix_drop_left _ hle

/-- Settles O4, by evaluating the 256 cells of the matrix at the four widths. -/
theorem onlyImmediateLengthsVary : Obligations.OnlyImmediateLengthsVary := by
  unfold Obligations.OnlyImmediateLengthsVary
  decide +kernel

/-- Settles O5, by evaluating the decoder. -/
theorem writtenWordsDecode : Obligations.WrittenWordsDecode := by
  and_intros <;> rfl

/-! ### The step runs what is decoded -/

/-- A byte of the list stands where the step fetches it. -/
theorem instrByte_of_bytesAtPc {s : State} {bs : List Byte} (h : bytesAtPc s bs) {n : Nat} {b : Byte}
    (hb : bs[n]? = some b) : instrByte s n = b := by
  have haddr : s.pc + BitVec.ofNat 16 n = BitVec.ofNat 16 (s.pc.toNat + n) := by
    rw [BitVec.ofNat_add, BitVec.ofNat_toNat, BitVec.setWidth_eq]
  rw [instrByte, fetchAddr, haddr]
  exact h n b hb

/-- Bytes at the program counter that decode are the instruction that is fetched: it depends only on the operand bytes
that it has (`instrOf_congr`), and those are among the bytes. -/
theorem fetchInstr_of_decode {s : State} {bs rest : List Byte} {i : Instr} (hbytes : bytesAtPc s bs)
    (h : decode (getFlag s.p .m) (getFlag s.p .x) bs = .ok (i, rest)) : fetchInstr s = i := by
  cases bs with
  | nil => cases h
  | cons op ops =>
    obtain ⟨hlen, -, rfl⟩ := decode_ok _ _ op ops rest i h
    have hop : instrByte s 0 = op := instrByte_of_bytesAtPc hbytes rfl
    have hoperand (n : Nat) (hn : n + 1 ≤ operandBytes (getFlag s.p .m) (getFlag s.p .x) (formOf op)) :
        instrByte s (n + 1) = ops.getD n 0 := by
      have hn' : n < ops.length := by omega
      refine instrByte_of_bytesAtPc hbytes ?_
      rw [List.getElem?_cons_succ, List.getD_eq_getElem _ _ hn', List.getElem?_eq_getElem hn']
    rw [fetchInstr, hop]
    exact instrOf_congr _ _ _ _ _ _ _ _ _ (hoperand 0) (hoperand 1) (hoperand 2)

/-- An undisturbed step is `exec` of the instruction at the program counter. -/
theorem step_of_undisturbed {s : State} (h : Undisturbed s) :
    step s = exec (fetchInstr s) { s with inputs := s.inputs.tail } :=
  step_of_execute (plan_of_undisturbed h)

/-- Settles O6: nothing comes before the instruction (`step_of_undisturbed`), and the one that is fetched is the one that
the bytes decode to (`fetchInstr_of_decode`). -/
theorem stepRunsDecodedInstruction : Obligations.StepRunsDecodedInstruction := by
  intro s bs i hquiet hbytes hdecode
  rw [step_of_undisturbed hquiet, fetchInstr_of_decode hbytes hdecode]

end Sys2Proof
end

/-! ## Memory, reset and the vectors (O7, O8, O10, O16) -/

section
namespace Sys2Proof.Machine

/-- Settles O7: two addresses are equal when their numbers are. -/
theorem readAfterWrite : Obligations.ReadAfterWrite := by
  intro s a b v
  simp only [State.read_write_eq, BitVec.toNat_inj]

/-- Settles O8: `Memory.eq_of_read_eq` over the addresses of the machine, and `State.wf_write`. -/
theorem memoryIsCanonical : Obligations.MemoryIsCanonical := by
  refine ⟨fun s t hs ht hread => ?_, State.wf_write⟩
  refine Memory.eq_of_read_eq s.mem t.mem 0 hs ht fun n hn => ?_
  have hn' : (BitVec.ofNat 24 n).toNat = n := by rw [BitVec.toNat_ofNat, Nat.mod_eq_of_lt hn]
  have h := hread (BitVec.ofNat 24 n)
  rwa [State.read, State.read, hn'] at h

/-- Settles O10, by evaluating the one state. -/
theorem resetHasInvariant : Obligations.ResetHasInvariant := by
  unfold Obligations.ResetHasInvariant
  decide

/-- Settles O16, by evaluating the table. -/
theorem vectors : Obligations.Vectors := by
  and_intros <;> rfl

end Sys2Proof.Machine
end

/-! ## The shared operations as record updates -/

section
namespace Sys2Proof.Machine

/-- Two states with the same fields are equal. -/
theorem State.eq_of_fields {s t : State} (hc : s.c = t.c) (hx : s.x = t.x) (hy : s.y = t.y) (hsp : s.sp = t.sp)
    (hd : s.d = t.d) (hdbr : s.dbr = t.dbr) (hpbr : s.pbr = t.pbr) (hpc : s.pc = t.pc) (hp : s.p = t.p)
    (he : s.e = t.e) (hrun : s.run = t.run) (hnmi : s.nmiPending = t.nmiPending)
    (habort : s.abortPending = t.abortPending) (hmem : s.mem = t.mem) (hinputs : s.inputs = t.inputs)
    (hparams : s.params = t.params) : s = t := by
  cases s
  cases t
  rw [State.mk.injEq]
  exact ⟨hc, hx, hy, hsp, hd, hdbr, hpbr, hpc, hp, he, hrun, hnmi, habort, hmem, hinputs, hparams⟩

/-! Each operation written under a condition is one record update whose fields carry the condition. -/

theorem clearIndexHigh_eq (s : State) :
    clearIndexHigh s =
      { s with
        x := if getFlag s.p .x then extendByte (lowByte s.x) else s.x
        y := if getFlag s.p .x then extendByte (lowByte s.y) else s.y } := by
  unfold clearIndexHigh
  split <;> rfl

theorem endStackN_eq (s : State) :
    endStackN s = { s with sp := if s.e then joinBytes 0x01 (lowByte s.sp) else s.sp } := by
  unfold endStackN
  split <;> rfl

theorem clearDbrOnEntry_eq (s : State) :
    clearDbrOnEntry s = { s with dbr := if s.e && s.params.emuIntClearsDbr then 0x00 else s.dbr } := by
  unfold clearDbrOnEntry
  split <;> rfl

theorem setMoveBank_eq (dst : Byte) (s : State) :
    setMoveBank dst s = { s with dbr := if s.params.blockMoveSetsDbr then dst else s.dbr } := by
  unfold setMoveBank
  split <;> rfl

/-- A pulled status byte: in emulation mode bits 5 and 4 stay 1, in native mode an x of 1 clears XH and YH (R225,
R268). -/
theorem loadP_eq (v : Byte) (s : State) :
    loadP v s =
      { s with
        p := if s.e then v ||| 0x30 else v
        x := if !s.e && getFlag v .x then extendByte (lowByte s.x) else s.x
        y := if !s.e && getFlag v .x then extendByte (lowByte s.y) else s.y } := by
  unfold loadP
  cases s.e
  · exact clearIndexHigh_eq _
  · rfl

theorem push16_eq (v : Word) (s : State) :
    push16 v s = { s with mem := (push16 v s).mem, sp := pushPointer s.e (pushPointer s.e s.sp) } := rfl

theorem push16n_eq (v : Word) (s : State) : push16n v s = { s with mem := (push16n v s).mem, sp := s.sp - 2 } := by
  have hsp : (push16n v s).sp = s.sp - 2 := by rw [push16n_sp]; bv_omega
  rw [← hsp]
  rfl

theorem pushFrame_eq (src : Source) (ret : Word) (s : State) :
    pushFrame src ret s = { s with mem := (pushFrame src ret s).mem, sp := (pushFrame src ret s).sp } := by
  apply State.eq_of_fields <;> simp

/-! ### Pull -/

theorem pull16_eq (s : State) :
    pull16 s =
      (joinBytes (s.read (stackAddr (pullPointer s.e (pullPointer s.e s.sp)))) (s.read (stackAddr (pullPointer s.e s.sp))),
        { s with sp := pullPointer s.e (pullPointer s.e s.sp) }) := rfl

theorem pull16n_eq (s : State) :
    pull16n s =
      (joinBytes (s.read (stackAddr (s.sp + 2))) (s.read (stackAddr (s.sp + 1))), { s with sp := s.sp + 2 }) := by
  have hsp : s.sp + 2 = s.sp + 1 + 1 := by bv_omega
  rw [hsp]
  rfl

/-! ### The low byte of S tells the bytes of a frame apart -/

@[simp] theorem lowByte_pushPointer (e : Bool) (sp : Word) : lowByte (pushPointer e sp) = lowByte sp - 1 := by
  cases e
  · apply BitVec.eq_of_toNat_eq
    simp only [pushPointer_native, toNat_lowByte, BitVec.toNat_sub, BitVec.reduceToNat]
    omega
  · simp

theorem lowByte_sub (sp n : Word) : lowByte (sp - n) = lowByte sp - lowByte n := by
  apply BitVec.eq_of_toNat_eq
  simp only [toNat_lowByte, BitVec.toNat_sub]
  omega

theorem stackAddr_ne_of_lowByte {a b : Word} (h : lowByte a ≠ lowByte b) : stackAddr a ≠ stackAddr b :=
  stackAddr_ne fun hab => h (congrArg lowByte hab)

/-! ### Memory that is kept -/

theorem memoryKept_of_mem_eq {s t : State} (h : t.mem = s.mem) (l : List Addr) : memoryKept l s t :=
  fun a _ => State.read_congr h a

/-- What is kept outside two lists one after the other is kept outside both. -/
theorem memoryKept_append {l l' : List Addr} {s t u : State} (hst : memoryKept l s t) (htu : memoryKept l' t u) :
    memoryKept (l ++ l') s u := by
  intro a ha
  rw [List.mem_append, not_or] at ha
  exact (htu a ha.2).trans (hst a ha.1)

theorem push8n_memoryKept (v : Byte) (s : State) : memoryKept [stackAddr s.sp] s (push8n v s) := by
  intro a ha
  rw [push8n_read, if_neg (mt List.mem_singleton.mpr ha)]

theorem push16_memoryKept (v : Word) (s : State) :
    memoryKept [stackAddr s.sp, stackAddr (pushPointer s.e s.sp)] s (push16 v s) :=
  memoryKept_append (push8_memoryKept _ s) (push8_memoryKept _ (push8 (highByte v) s))

theorem push16n_memoryKept (v : Word) (s : State) :
    memoryKept [stackAddr s.sp, stackAddr (s.sp - 1)] s (push16n v s) :=
  memoryKept_append (push8n_memoryKept _ s) (push8n_memoryKept _ (push8n (highByte v) s))

/-! ### What 16-bit pushes leave on the stack -/

theorem push16_read_high (v : Word) (s : State) : (push16 v s).read (stackAddr s.sp) = highByte v := by
  rw [push16_read, if_neg (stackAddr_ne (pushPointer_ne s.e s.sp).symm), if_pos rfl]

theorem push16_read_low (v : Word) (s : State) :
    (push16 v s).read (stackAddr (pushPointer s.e s.sp)) = lowByte v := by
  rw [push16_read, if_pos rfl]

theorem push16n_read_high (v : Word) (s : State) : (push16n v s).read (stackAddr s.sp) = highByte v := by
  have hne : s.sp ≠ s.sp - 1 := (pushPointer_ne false s.sp).symm
  rw [push16n_read, if_neg (stackAddr_ne hne), if_pos rfl]

theorem push16n_read_low (v : Word) (s : State) : (push16n v s).read (stackAddr (s.sp - 1)) = lowByte v := by
  rw [push16n_read, if_pos rfl]

end Sys2Proof.Machine
end

/-! ## Interrupt entry (O17, O18, O22) -/

section
namespace Sys2Proof.Machine

/-- What an interrupt entry does to every field (R310): memory and S are those after the pushes. -/
theorem interruptEntry_eq (src : Source) (ret : Word) (s : State) :
    interruptEntry src ret s =
      { s with
        mem := (pushFrame src ret s).mem
        sp := (pushFrame src ret s).sp
        p := setFlag (setFlag s.p .i true) .d false
        dbr := if s.e && s.params.emuIntClearsDbr then 0x00 else s.dbr
        pbr := 0x00
        pc := (interruptEntry src ret s).pc
        nmiPending := !decide (src = .nmi) && s.nmiPending
        abortPending := !decide (src = .abort) && s.abortPending
        run := .running } := by
  have hnmi : (interruptEntry src ret s).nmiPending = (!decide (src = .nmi) && s.nmiPending) := by
    rw [interruptEntry_nmiPending]
    cases src <;> rfl
  have habort : (interruptEntry src ret s).abortPending = (!decide (src = .abort) && s.abortPending) := by
    rw [interruptEntry_abortPending]
    cases src <;> rfl
  apply State.eq_of_fields <;>
    simp only [interruptEntry_c, interruptEntry_x, interruptEntry_y, interruptEntry_sp, interruptEntry_d,
      interruptEntry_dbr, interruptEntry_pbr, interruptEntry_p, interruptEntry_e, interruptEntry_run, hnmi, habort,
      interruptEntry_mem, interruptEntry_inputs, interruptEntry_params]

theorem interruptEntry_read (src : Source) (ret : Word) (s : State) (a : Addr) :
    (interruptEntry src ret s).read a = (pushFrame src ret s).read a :=
  State.read_congr (interruptEntry_mem src ret s) a

/-- The handler's address is read from the vector after the pushes (R310, R74). -/
theorem interruptEntry_pc (src : Source) (ret : Word) (s : State) :
    (interruptEntry src ret s).pc = (interruptEntry src ret s).readWord (bankAddr 0x00 (vector src s.e)) := by
  have he : (clearDbrOnEntry (pushFrame src ret s)).e = s.e := by simp
  rw [State.readWord, interruptEntry_read, interruptEntry_read, ← he]
  simp only [interruptEntry, enterHandler, State.readWord,
    State.read_congr (clearDbrOnEntry_mem (pushFrame src ret s))]

theorem atHandler_interruptEntry (src : Source) (ret : Word) (s : State) :
    atHandler src s (interruptEntry src ret s) := by
  have hi : getFlag (setFlag (setFlag s.p .i true) .d false) .i = true := by
    rw [getFlag_setFlag_of_ne _ _ _ _ (by decide), getFlag_setFlag_same]
  have hkept : flagsKept [.n, .v, .m, .x, .z, .c] s.p (setFlag (setFlag s.p .i true) .d false) :=
    flagsKept_trans (flagsKept_setFlag (by decide) _ _) (flagsKept_setFlag (by decide) _ _)
  refine ⟨?_, ?_, ?_, ?_⟩
  · rw [interruptEntry_p, hi]
  · rw [interruptEntry_p, getFlag_setFlag_same]
  · rwa [interruptEntry_p]
  · rw [interruptEntry_pc, State.readWord, inc16_bankAddr]

/-! ### The frame on the stack -/

/-- The three bytes that every entry pushes: the return address and the status byte. -/
theorem pushFrame_of_emulation {s : State} (he : s.e = true) (src : Source) (ret : Word) :
    pushFrame src ret s = push8 (stackedP src true s.p) (push16 ret s) := by
  rw [pushFrame, he, if_pos rfl]

/-- In native mode PBR is pushed before them. -/
theorem pushFrame_of_native {s : State} (he : s.e = false) (src : Source) (ret : Word) :
    pushFrame src ret s = push8 s.p (push16 ret (push8 s.pbr s)) := by
  rw [pushFrame, he, if_neg Bool.false_ne_true]
  rfl

theorem emulationStatus_eq (src : Source) (p : Byte) : stackedP src true p = emulationStatus src p := by
  cases src <;> rfl

/-- In native mode an entry pushes four bytes below S. -/
theorem pushFrame_read_of_native {s : State} (he : s.e = false) (src : Source) (ret : Word) (a : Addr) :
    (pushFrame src ret s).read a =
      if a = stackAddr (s.sp - 3) then s.p
      else if a = stackAddr (s.sp - 2) then lowByte ret
      else if a = stackAddr (s.sp - 1) then highByte ret
      else if a = stackAddr s.sp then s.pbr else s.read a := by
  have h2 : s.sp - 1 - 1 = s.sp - 2 := by bv_omega
  have h3 : s.sp - 2 - 1 = s.sp - 3 := by bv_omega
  simp only [pushFrame_of_native he, push8_read, push16_read, push16_sp, push8_sp, push8_e, he,
    pushPointer_native, h2, h3]

/-- In emulation mode it pushes three bytes, the pointer wrapping inside page 1. -/
theorem pushFrame_read_of_emulation {s : State} (he : s.e = true) (src : Source) (ret : Word) (a : Addr) :
    (pushFrame src ret s).read a =
      if a = pageOneBelow s.sp 2 then emulationStatus src s.p
      else if a = pageOneBelow s.sp 1 then lowByte ret
      else if a = stackAddr s.sp then highByte ret else s.read a := by
  have h2 : lowByte s.sp - 1 - 1 = lowByte s.sp - 2 := by bv_omega
  simp only [pushFrame_of_emulation he, push8_read, push16_read, push16_sp, he, pushPointer_emulation,
    lowByte_joinBytes, h2, emulationStatus_eq]
  rfl

/-- The bytes of the native frame have four addresses. -/
theorem stackAddr_sub_ne (sp : Word) {m n : Word} (h : m ≠ n) : stackAddr (sp - m) ≠ stackAddr (sp - n) :=
  stackAddr_ne fun heq => h ((BitVec.sub_right_inj _).mp heq)

theorem stackAddr_ne_sub (sp : Word) {n : Word} (h : 0 ≠ n) : stackAddr sp ≠ stackAddr (sp - n) := fun heq =>
  stackAddr_sub_ne sp h ((congrArg stackAddr (BitVec.sub_zero sp)).trans heq)

/-- The bytes of the emulation frame have three addresses. -/
theorem pageOneBelow_ne (sp : Word) {m n : Byte} (h : m ≠ n) : pageOneBelow sp m ≠ pageOneBelow sp n := by
  intro heq
  have hlow := (joinBytes_inj.mp (bankAddr_inj.mp heq).2).2
  exact h ((BitVec.sub_right_inj _).mp hlow)

theorem stackAddr_ne_pageOneBelow (sp : Word) {n : Byte} (h : 0 ≠ n) : stackAddr sp ≠ pageOneBelow sp n := by
  refine stackAddr_ne_of_lowByte fun heq => h ?_
  rw [lowByte_joinBytes] at heq
  exact (BitVec.sub_right_inj _).mp ((BitVec.sub_zero _).trans heq)

/-- `InterruptEntry` in native mode (R310). -/
theorem interruptEntry_entersNative {s : State} (he : s.e = false) (src : Source) (ret : Word) :
    EntersNative src ret s (interruptEntry src ret s) := by
  have hsp : (pushFrame src ret s).sp = s.sp - 4 := by
    rw [pushFrame_sp, he, if_neg Bool.false_ne_true]
    simp only [pushPointer_native]
    bv_omega
  refine ⟨?_, ?_, ?_, ?_, ?_, ?_, atHandler_interruptEntry src ret s⟩
  · rw [interruptEntry_eq, hsp, he]
    rfl
  · rw [interruptEntry_read, pushFrame_read_of_native he, if_neg (stackAddr_ne_sub _ (by decide)),
      if_neg (stackAddr_ne_sub _ (by decide)), if_neg (stackAddr_ne_sub _ (by decide)), if_pos rfl]
  · rw [interruptEntry_read, pushFrame_read_of_native he, if_neg (stackAddr_sub_ne _ (by decide)),
      if_neg (stackAddr_sub_ne _ (by decide)), if_pos rfl]
  · rw [interruptEntry_read, pushFrame_read_of_native he, if_neg (stackAddr_sub_ne _ (by decide)), if_pos rfl]
  · rw [interruptEntry_read, pushFrame_read_of_native he, if_pos rfl]
  · intro a ha
    simp only [List.mem_cons, List.not_mem_nil, or_false, not_or] at ha
    obtain ⟨h0, h1, h2, h3⟩ := ha
    rw [interruptEntry_read, pushFrame_read_of_native he, if_neg h3, if_neg h2, if_neg h1, if_neg h0]

/-- `InterruptEntry` in emulation mode (R310). -/
theorem interruptEntry_entersEmulation {s : State} (he : s.e = true) (src : Source) (ret : Word) :
    EntersEmulation src ret s (interruptEntry src ret s) := by
  have hsp : (pushFrame src ret s).sp = joinBytes 0x01 (lowByte s.sp - 3) := by
    rw [pushFrame_sp, he, if_pos rfl]
    simp only [pushPointer_emulation, lowByte_joinBytes]
    congr 1
    bv_omega
  refine ⟨?_, ?_, ?_, ?_, ?_, atHandler_interruptEntry src ret s⟩
  · rw [interruptEntry_eq, hsp, he]
    rfl
  · rw [interruptEntry_read, pushFrame_read_of_emulation he, if_neg (stackAddr_ne_pageOneBelow _ (by decide)),
      if_neg (stackAddr_ne_pageOneBelow _ (by decide)), if_pos rfl]
  · rw [interruptEntry_read, pushFrame_read_of_emulation he, if_neg (pageOneBelow_ne _ (by decide)), if_pos rfl]
  · rw [interruptEntry_read, pushFrame_read_of_emulation he, if_pos rfl]
  · intro a ha
    simp only [List.mem_cons, List.not_mem_nil, or_false, not_or] at ha
    obtain ⟨h0, h1, h2⟩ := ha
    rw [interruptEntry_read, pushFrame_read_of_emulation he, if_neg h2, if_neg h1, if_neg h0]

/-- Every interrupt entry has the effects that R310 lists, in the mode of its state. -/
theorem interruptEntry_enters (src : Source) (ret : Word) (s : State) :
    Enters src ret s (interruptEntry src ret s) := by
  unfold Enters
  cases he : s.e
  · exact interruptEntry_entersNative he src ret
  · exact interruptEntry_entersEmulation he src ret

/-- The run state before an entry plays no part in it, since every entry ends running. -/
theorem enters_of_running {src : Source} {ret : Word} {s t : State} {r : RunState}
    (h : Enters src ret { s with run := r } t) : Enters src ret s t := h

theorem exec_brk (sig : Byte) (s : State) : exec (.brk sig) s = .next (interruptEntry .brk (s.pc + 2) s) := rfl

theorem exec_cop (sig : Byte) (s : State) : exec (.cop sig) s = .next (interruptEntry .cop (s.pc + 2) s) := rfl

/-- Settles O17: BRK and COP are the entry of their source, and `interruptEntry_enters` says what an entry does. -/
theorem softwareInterrupts : Obligations.SoftwareInterrupts := fun s sig =>
  ⟨⟨_, exec_brk sig s, interruptEntry_enters ..⟩, _, exec_cop sig s, interruptEntry_enters ..⟩

/-! ### The inputs latched -/

/-- What latching leaves in P: v may be set, by the Set Overflow pin alone. -/
theorem latchInputs_p (s : State) :
    (latchInputs s).p = if s.params.soPin && (inputsNow s).setOverflow then setFlag s.p .v true else s.p := rfl

theorem latchInputs_flagsKept (s : State) : flagsKept [.n, .m, .x, .d, .i, .z, .c] s.p (latchInputs s).p := by
  rw [latchInputs_p]
  split
  case isTrue => exact flagsKept_setFlag (by decide) _ _
  case isFalse => exact fun _ _ => rfl

/-- Settles O19: each clause is one field of `latchInputs`. -/
theorem latchedEvents : Obligations.LatchedEvents := by
  intro s
  refine ⟨rfl, ?_, ?_, latchInputs_flagsKept s, ?_⟩
  · exact Bool.or_eq_true_iff
  · exact Bool.or_eq_true_iff.trans (or_congr_right Bool.and_eq_true_iff)
  · rw [latchInputs_p, ← Bool.and_eq_true]
    split
    case isTrue h => simp [h]
    case isFalse h => simp [h]

/-! ### Hardware interrupts -/

/-- Under the default INT_PRIORITY the first pending source is ABORT, else NMI, else IRQ (R312, log 13). -/
theorem firstPending_of_default {s : State} (h : s.params.intPriority = .abortNmiIrq) (pending : Source → Bool) :
    firstPending pending s =
      bif pending .abort then some .abort
      else bif pending .nmi then some .nmi
      else bif pending .irq then some .irq else none := by
  rw [firstPending, h, priorityOrder]
  simp only [List.find?]
  cases pending .abort <;> cases pending .nmi <;> cases pending .irq <;> rfl

/-- A running processor enters the handler of the first pending source. -/
theorem step_of_pendingRunning {s : State} {src : Source} (hrun : s.run = .running) (hreset : (inputsNow s).reset = false)
    (h : firstPending (pendingRunning (inputsNow s).irq (latchInputs s)) (latchInputs s) = some src) :
    step s = .next (interruptEntry src s.pc (latchInputs s)) := by
  refine step_of_done ?_
  simp only [plan_eq, hreset, hrun, planRunning, h]
  rfl

/-- Settles O18: the first pending source under the default order (`firstPending_of_default`) is entered. -/
theorem hardwareInterrupts : Obligations.HardwareInterrupts := by
  intro s hrun hreset hprio u
  have hfirst := firstPending_of_default (s := u) hprio (pendingRunning (inputsNow s).irq u)
  have hi : getFlag u.p .i = getFlag s.p .i := latchInputs_flagsKept s .i (by decide)
  simp only [pendingRunning, hi] at hfirst
  refine ⟨fun ha => ?abort, fun ha hn => ?nmi, fun ha hn hirq hmask => ?irq⟩
  case abort => exact ⟨_, step_of_pendingRunning hrun hreset (by rw [hfirst, ha]; rfl), interruptEntry_enters ..⟩
  case nmi => exact ⟨_, step_of_pendingRunning hrun hreset (by rw [hfirst, ha, hn]; rfl), interruptEntry_enters ..⟩
  case irq =>
    exact ⟨_, step_of_pendingRunning hrun hreset (by rw [hfirst, ha, hn, hirq, hmask]; rfl),
      interruptEntry_enters ..⟩

/-! ### The wait state -/

/-- A waiting processor that something wakes, unless it is an IRQ that `i` masks, enters its handler. -/
theorem step_of_wake {s : State} {src : Source} (hrun : s.run = .waiting) (hreset : (inputsNow s).reset = false)
    (h : firstPending (pendingWaiting (inputsNow s).irq (latchInputs s)) (latchInputs s) = some src)
    (hmask : ¬(src = .irq ∧ getFlag (latchInputs s).p .i = true)) :
    step s = .next (interruptEntry src s.pc { latchInputs s with run := .running }) := by
  refine step_of_done ?_
  simp only [plan_eq, hreset, hrun, planWaiting, h, if_neg hmask]
  rfl

/-- An IRQ that `i` masks ends the wait alone (R316). -/
theorem step_of_masked_wake {s : State} (hrun : s.run = .waiting) (hreset : (inputsNow s).reset = false)
    (h : firstPending (pendingWaiting (inputsNow s).irq (latchInputs s)) (latchInputs s) = some .irq)
    (hmask : getFlag (latchInputs s).p .i = true) :
    step s = .next { latchInputs s with run := .running } := by
  refine step_of_done ?_
  simp only [plan_eq, hreset, hrun, planWaiting, h, hmask]
  rfl

/-- Nothing that wakes: the processor goes on waiting, and an ABORT is discarded (R316, C38). -/
theorem step_of_no_wake {s : State} (hrun : s.run = .waiting) (hreset : (inputsNow s).reset = false)
    (h : firstPending (pendingWaiting (inputsNow s).irq (latchInputs s)) (latchInputs s) = none) :
    step s = .next { latchInputs s with abortPending := false } := by
  refine step_of_done ?_
  simp only [plan_eq, hreset, hrun, planWaiting, h]
  rfl

/-- Settles O22: NMI, else IRQ, is the first source that wakes (`firstPending_of_default`). -/
theorem waitingStep : Obligations.WaitingStep := by
  intro s hrun hreset hprio u
  have hfirst := firstPending_of_default (s := u) hprio (pendingWaiting (inputsNow s).irq u)
  have hi : getFlag u.p .i = getFlag s.p .i := latchInputs_flagsKept s .i (by decide)
  simp only [pendingWaiting] at hfirst
  refine ⟨fun hn => ?nmi, fun hn hirq hmask => ?irq, fun hn hirq hmask => ?masked, fun hn hirq => ?idle⟩
  case nmi =>
    rw [hn] at hfirst
    exact ⟨_, step_of_wake hrun hreset hfirst (fun h => nomatch h.1), enters_of_running (interruptEntry_enters ..)⟩
  case irq =>
    have hopen : ¬(Source.irq = .irq ∧ getFlag u.p .i = true) := by simp [hi, hmask]
    exact ⟨_, step_of_wake hrun hreset (hfirst.trans (by rw [hn, hirq]; rfl)) hopen, enters_of_running (interruptEntry_enters ..)⟩
  case masked =>
    exact step_of_masked_wake hrun hreset (hfirst.trans (by rw [hn, hirq]; rfl)) (hi.trans hmask)
  case idle =>
    exact step_of_no_wake hrun hreset (hfirst.trans (by rw [hn, hirq]; rfl))

end Sys2Proof.Machine
end

/-! ## Return from interrupt (O20, O21) -/

section
namespace Sys2Proof.Machine

/-- The address `n` above the stack pointer inside page 1. -/
def pageOneAbove (sp : Word) (n : Byte) : Addr := bankAddr 0x00 (joinBytes 0x01 (lowByte sp + n))

/-- RTI in native mode takes four bytes above S (R225). -/
theorem exec_rti_of_native {s : State} (he : s.e = false) :
    exec .rti s = .next { s with
      sp := s.sp + 4
      p := s.read (stackAddr (s.sp + 1))
      pc := joinBytes (s.read (stackAddr (s.sp + 3))) (s.read (stackAddr (s.sp + 2)))
      pbr := s.read (stackAddr (s.sp + 4))
      x := if getFlag (s.read (stackAddr (s.sp + 1))) .x then extendByte (lowByte s.x) else s.x
      y := if getFlag (s.read (stackAddr (s.sp + 1))) .x then extendByte (lowByte s.y) else s.y } := by
  have h2 : s.sp + 1 + 1 = s.sp + 2 := by bv_omega
  have h3 : s.sp + 2 + 1 = s.sp + 3 := by bv_omega
  have h4 : s.sp + 3 + 1 = s.sp + 4 := by bv_omega
  have hrti : exec .rti s = .next (returnFromInterrupt s) := rfl
  simp only [hrti, returnFromInterrupt, pull8_eq, pull16_eq, loadP_eq, he, pullPointer_native, h2, h3, h4]
  rfl

/-- RTI in emulation mode takes three bytes above S inside page 1 (R225). -/
theorem exec_rti_of_emulation {s : State} (he : s.e = true) :
    exec .rti s = .next { s with
      sp := joinBytes 0x01 (lowByte s.sp + 3)
      p := s.read (pageOneAbove s.sp 1) ||| 0x30
      pc := joinBytes (s.read (pageOneAbove s.sp 3)) (s.read (pageOneAbove s.sp 2)) } := by
  have h2 : lowByte s.sp + 1 + 1 = lowByte s.sp + 2 := by bv_omega
  have h3 : lowByte s.sp + 2 + 1 = lowByte s.sp + 3 := by bv_omega
  have hrti : exec .rti s = .next (returnFromInterrupt s) := rfl
  simp only [hrti, returnFromInterrupt, pull8_eq, pull16_eq, loadP_eq, he, pullPointer_emulation, lowByte_joinBytes, h2,
    h3]
  rfl

/-- Settles O20: `exec_rti_of_native` and `exec_rti_of_emulation`. -/
theorem returnFromInterrupt_pulls : Obligations.ReturnFromInterrupt :=
  ⟨fun _ he => exec_rti_of_native he, fun _ he => exec_rti_of_emulation he⟩

/-! ### RTI after an entry -/

/-- Bits 5 and 4 of the status byte are m and x. -/
theorem getFlag_widths (f : Flag) : getFlag 0x30 f = (f == .m || f == .x) := by
  cases f <;> decide

/-- In emulation mode m and x are 1, so the status byte that RTI loads is P itself, whatever bits 5 and 4 of the stacked
byte are. -/
theorem emulationStatus_or_widths {p : Byte} (hm : getFlag p .m = true) (hx : getFlag p .x = true) (src : Source) :
    emulationStatus src p ||| 0x30 = p := by
  have hstatus (f : Flag) : getFlag (emulationStatus src p) f = getFlag p f ∨ f = .m ∨ f = .x := by
    cases f <;> cases src <;> simp [emulationStatus, getFlag, flagBit]
  apply eq_of_getFlag_eq
  intro f
  rw [getFlag_or, getFlag_widths]
  obtain h | rfl | rfl := hstatus f
  · rw [h]
    cases f <;> simp [hm, hx]
  · simp [hm]
  · simp [hx]

/-- The pointer of the interrupted program, found again from the low byte that the entry left. -/
theorem pageOne_add_back {sp : Word} (h : highByte sp = 0x01) (n : Byte) :
    joinBytes 0x01 (lowByte (joinBytes 0x01 (lowByte sp - n)) + n) = sp := by
  rw [lowByte_joinBytes, BitVec.sub_add_cancel, ← h, joinBytes_high_low]

theorem rtiUndoesEntry_of_native {src : Source} {ret : Word} {s h u : State} (he : s.e = false)
    (hhe : h.e = false) (hsp : h.sp = s.sp - 4)
    (hframe : ∀ a ∈ [stackAddr s.sp, stackAddr (s.sp - 1), stackAddr (s.sp - 2), stackAddr (s.sp - 3)],
      h.read a = (interruptEntry src ret s).read a) (hu : exec .rti h = .next u) :
    u.p = s.p ∧ u.pc = ret ∧ u.sp = s.sp ∧ u.pbr = s.pbr := by
  obtain ⟨-, hpbr, hhigh, hlow, hp, -, -⟩ := interruptEntry_entersNative he src ret
  have h1 : h.sp + 1 = s.sp - 3 := by rw [hsp]; bv_omega
  have h2 : h.sp + 2 = s.sp - 2 := by rw [hsp]; bv_omega
  have h3 : h.sp + 3 = s.sp - 1 := by rw [hsp]; bv_omega
  have h4 : h.sp + 4 = s.sp := by rw [hsp]; bv_omega
  rw [exec_rti_of_native hhe, h1, h2, h3, h4] at hu
  obtain rfl := Host.Outcome.next.inj hu
  simp only [List.forall_mem_cons] at hframe
  obtain ⟨hf0, hf1, hf2, hf3, -⟩ := hframe
  exact ⟨hf3.trans hp, by rw [hf1, hf2, hhigh, hlow, joinBytes_high_low], rfl, hf0.trans hpbr⟩

theorem rtiUndoesEntry_of_emulation {src : Source} {ret : Word} {s h u : State} (he : s.e = true)
    (hwidths : EmulationWidths s) (hstack : EmulationStack s)
    (hhe : h.e = true) (hsp : h.sp = joinBytes 0x01 (lowByte s.sp - 3))
    (hframe : ∀ a ∈ [stackAddr s.sp, pageOneBelow s.sp 1, pageOneBelow s.sp 2],
      h.read a = (interruptEntry src ret s).read a) (hu : exec .rti h = .next u) :
    u.p = s.p ∧ u.pc = ret ∧ u.sp = s.sp := by
  obtain ⟨-, hhigh, hlow, hp, -, -⟩ := interruptEntry_entersEmulation he src ret
  have hback := pageOne_add_back (hstack he)
  have h1 : pageOneAbove h.sp 1 = pageOneBelow s.sp 2 := by
    rw [hsp, pageOneAbove, lowByte_joinBytes, pageOneBelow]
    congr 2
    bv_omega
  have h2 : pageOneAbove h.sp 2 = pageOneBelow s.sp 1 := by
    rw [hsp, pageOneAbove, lowByte_joinBytes, pageOneBelow]
    congr 2
    bv_omega
  have h3 : pageOneAbove h.sp 3 = stackAddr s.sp := by rw [hsp, pageOneAbove, hback, stackAddr]
  obtain ⟨hm, hx⟩ := hwidths he
  rw [exec_rti_of_emulation hhe, h1, h2, h3, hsp, hback] at hu
  obtain rfl := Host.Outcome.next.inj hu
  simp only [List.forall_mem_cons] at hframe
  obtain ⟨hf0, hf1, hf2, -⟩ := hframe
  exact ⟨by rw [hf2, hp, emulationStatus_or_widths hm hx], by rw [hf0, hf1, hhigh, hlow, joinBytes_high_low], rfl⟩

/-- Settles O21: RTI reads the bytes that the entry wrote, in the mode of the entry. -/
theorem rtiUndoesEntry : Obligations.RtiUndoesEntry := by
  intro src ret s h u hwidths hstack t frame hhe hsp hframe hu
  have hte : t.e = s.e := interruptEntry_e src ret s
  cases he : s.e with
  | false =>
    obtain ⟨hentry, -⟩ := interruptEntry_entersNative he src ret
    have htsp : t.sp = s.sp - 4 := congrArg State.sp hentry
    simp only [frame, he] at hframe
    obtain ⟨hp, hpc, hsp', hpbr⟩ :=
      rtiUndoesEntry_of_native he (hhe.trans (hte.trans he)) (hsp.trans htsp) hframe hu
    exact ⟨hp, hpc, hsp', fun _ => hpbr⟩
  | true =>
    obtain ⟨hentry, -⟩ := interruptEntry_entersEmulation he src ret
    have htsp : t.sp = joinBytes 0x01 (lowByte s.sp - 3) := congrArg State.sp hentry
    simp only [frame, he] at hframe
    obtain ⟨hp, hpc, hsp'⟩ :=
      rtiUndoesEntry_of_emulation he hwidths hstack (hhe.trans (hte.trans he)) (hsp.trans htsp) hframe hu
    exact ⟨hp, hpc, hsp', fun hnative => nomatch hnative⟩

end Sys2Proof.Machine
end

/-! ## Stop and reset (O23, O24) -/

section
namespace Sys2Proof.Machine

/-- The state after `k` steps without reset from a stopped state: the events of those steps are latched (R304, R317). -/
def stoppedFor (k : Nat) (s : State) : State :=
  { s with
    inputs := s.inputs.drop k
    nmiPending := s.nmiPending || (s.inputs.take k).any fun inp => inp.nmi
    abortPending := s.abortPending || (s.params.abortSupported && (s.inputs.take k).any fun inp => inp.abort)
    p := if s.params.soPin && (s.inputs.take k).any (fun inp => inp.setOverflow) then setFlag s.p .v true else s.p }

theorem stoppedFor_zero (s : State) : stoppedFor 0 s = s := by
  simp [stoppedFor]

/-- Latching one entry of the inputs and then those of `k` steps is latching those of `k + 1` steps. -/
theorem stoppedFor_succ (k : Nat) (s : State) : stoppedFor k (latchInputs s) = stoppedFor (k + 1) s := by
  have hp (so now later : Bool) (p : Byte) :
      (if so && later then setFlag (if so && now then setFlag p .v true else p) .v true
        else if so && now then setFlag p .v true else p) = if so && (now || later) then setFlag p .v true else p := by
    cases so <;> cases now <;> cases later <;> simp
  unfold stoppedFor
  cases hinputs : s.inputs with
  | nil => simp [latchInputs, inputsNow, hinputs, quietInputs]
  | cons now later =>
    simp only [latchInputs, inputsNow, hinputs, List.headD_cons, List.tail_cons, List.drop_succ_cons, List.take_succ_cons,
      List.any_cons, hp, Bool.or_assoc, Bool.and_or_distrib_left]

/-- Settles O23, by induction on the number of steps: each step of a stopped processor is `latchInputs`. -/
theorem stoppedUntilReset : Obligations.StoppedUntilReset := by
  intro k
  induction k with
  | zero =>
    intro s _ _
    exact congrArg Host.Outcome.next (stoppedFor_zero s).symm
  | succ k ih =>
    intro s hrun hreset
    have hnow : (inputsNow s).reset = false := by
      cases hinputs : s.inputs with
      | nil => rw [inputsNow, hinputs]; rfl
      | cons now later => exact (congrArg Inputs.reset (by rw [inputsNow, hinputs]; rfl)).trans (hreset now (by simp [hinputs]))
    have hlater : ∀ inp ∈ (latchInputs s).inputs.take k, inp.reset = false := by
      intro inp hinp
      cases hinputs : s.inputs with
      | nil => simp [hinputs] at hinp
      | cons now later =>
        simp only [latchInputs_inputs, hinputs, List.tail_cons] at hinp
        exact hreset inp (by rw [hinputs, List.take_succ_cons]; exact List.mem_cons_of_mem now hinp)
    rw [core_run_succ (step_of_stopped hrun hnow), ih (latchInputs s) hrun hlater]
    exact congrArg Host.Outcome.next (stoppedFor_succ k s)

/-- The flags after reset (R341): m, x, i and d are written, the others kept. -/
theorem getFlag_resetEntry (s : State) (f : Flag) :
    getFlag (resetEntry s).p f =
      match f with
      | .m | .x | .i => true
      | .d => false
      | .n | .v | .z | .c => getFlag s.p f := by
  cases f <;> simp [resetEntry, getFlag_setFlag]

theorem resetEntry_pc (s : State) : (resetEntry s).pc = joinBytes (s.read 0x00FFFD) (s.read 0x00FFFC) := rfl

/-- Settles O24: the step is `resetEntry` of the latched state, in every run state. -/
theorem resetStep : Obligations.ResetStep := by
  intro s hreset
  have hplan : plan s = .done (resetEntry (latchInputs s)) := by rw [plan_eq, if_pos hreset]
  refine ⟨_, step_of_done hplan, rfl, getFlag_resetEntry _ .m, getFlag_resetEntry _ .x, getFlag_resetEntry _ .i,
    getFlag_resetEntry _ .d, ?_, getFlag_resetEntry _ .v⟩
  intro f hf
  have hlatch : getFlag (latchInputs s).p f = getFlag s.p f :=
    latchInputs_flagsKept s f ((show [Flag.n, .z, .c] ⊆ [.n, .m, .x, .d, .i, .z, .c] by decide) hf)
  rw [← hlatch]
  simp only [List.mem_cons, List.not_mem_nil, or_false] at hf
  rcases hf with rfl | rfl | rfl <;> exact getFlag_resetEntry _ _

end Sys2Proof.Machine
end

/-! ## Jumps, calls and returns (O41 to O45) -/

section
namespace Sys2Proof.Machine

/-! ### Jumps -/

/-- A word in one bank, low byte first; its second address wraps inside the bank (R50, R65). -/
theorem readWord_bankAddr (s : State) (bank : Byte) (a : Word) :
    s.readWord (bankAddr bank a) = joinBytes (s.read (bankAddr bank (a + 1))) (s.read (bankAddr bank a)) := by
  rw [State.readWord, inc16_bankAddr]

theorem bankOf_eq_ofNat (l : Addr) : bankOf l = BitVec.ofNat 8 (l.toNat / 65536) := by
  rw [← toNat_bankOf, BitVec.ofNat_toNat, BitVec.setWidth_eq]

theorem offsetOf_eq_ofNat (l : Addr) : offsetOf l = BitVec.ofNat 16 l.toNat := by
  rw [BitVec.ofNat_toNat, offsetOf]

/-- The displacement of a 16-bit branch, as a sum modulo 2^16 (R132). -/
theorem pc_add_three_add (pc r : Word) : pc + 3 + r = BitVec.ofNat 16 (pc.toNat + 3 + r.toNat) := by
  bv_omega

theorem exec_brl (r : Word) (s : State) : exec (.brl r) s = .next { s with pc := s.pc + 3 + r } := rfl

theorem exec_jmpAbs (a : Word) (s : State) : exec (.jmpAbs a) s = .next { s with pc := a } := rfl

theorem exec_jmpAbsInd (a : Word) (s : State) :
    exec (.jmpAbsInd a) s = .next { s with pc := s.readWord (bankAddr 0x00 a) } := rfl

theorem exec_jmpAbsXInd (a : Word) (s : State) :
    exec (.jmpAbsXInd a) s = .next { s with pc := s.readWord (bankAddr s.pbr (a + s.x)) } := rfl

theorem exec_jmlLong (l : Addr) (s : State) :
    exec (.jmlLong l) s = .next { s with pc := offsetOf l, pbr := bankOf l } := rfl

theorem exec_jmlAbsLong (a : Word) (s : State) :
    exec (.jmlAbsLong a) s = .next { s with
      pc := s.readWord (bankAddr 0x00 a), pbr := s.read (inc16 (inc16 (bankAddr 0x00 a))) } := rfl

/-- Settles O41: one equation of `exec` for each of the six jumps, with the pointers read byte by byte
(`readWord_bankAddr`). -/
theorem jumps : Obligations.Jumps := by
  intro s r a l zero table
  have hzero0 : s.read (bankAddr 0x00 a) = zero 0 := congrArg (fun n => s.read (bankAddr 0x00 n)) (BitVec.add_zero a).symm
  have htable0 : s.read (bankAddr s.pbr (a + s.x)) = table 0 :=
    congrArg (fun n => s.read (bankAddr s.pbr n)) (BitVec.add_zero (a + s.x)).symm
  have htwo : a + 1 + 1 = a + 2 := by bv_omega
  refine ⟨?_, exec_jmpAbs a s, ?_, ?_, ?_, ?_⟩
  · rw [exec_brl, pc_add_three_add]
  · rw [exec_jmpAbsInd, readWord_bankAddr, hzero0]
  · rw [exec_jmpAbsXInd, readWord_bankAddr, htable0]
  · rw [exec_jmlLong, offsetOf_eq_ofNat, bankOf_eq_ofNat]
  · rw [exec_jmlAbsLong, readWord_bankAddr, hzero0, inc16_bankAddr, inc16_bankAddr, htwo]

/-! ### Calls -/

/-- S after `n` bytes were pushed by an instruction with the 16-bit stack pointer (R141). -/
def widePointer (s : State) (n : Word) : Word := if s.e then joinBytes 0x01 (lowByte (s.sp - n)) else s.sp - n

/-- The late operand byte depends on memory after the pushes alone. -/
theorem lateFetch_congr {t t' : State} (h : t'.mem = t.mem) (s : State) (n : Nat) (decoded : Byte) :
    lateFetch s t' n decoded = lateFetch s t n decoded := by
  simp only [lateFetch, State.read_congr h]

/-- JSR abs pushes the address of its last byte and jumps (R217). -/
theorem exec_jsrAbs (a : Word) (s : State) :
    exec (.jsrAbs a) s = .next { s with
      mem := (push16 (s.pc + 2) s).mem, sp := pushPointer s.e (pushPointer s.e s.sp), pc := a } := rfl

/-- The pointer table of JSR (abs,X): the high byte of its address is fetched after the pushes (R134, R64). -/
def jsrTable (a : Word) (s : State) : Word :=
  joinBytes (lateFetch s (push16n (s.pc + 2) s) 2 (highByte a)) (lowByte a) + s.x

theorem exec_jsrAbsXInd (a : Word) (s : State) :
    exec (.jsrAbsXInd a) s = .next { s with
      mem := (push16n (s.pc + 2) s).mem
      sp := widePointer s 2
      pc := (push16n (s.pc + 2) s).readWord (bankAddr s.pbr (jsrTable a s)) } := by
  have hexec : exec (.jsrAbsXInd a) s = execJsrAbsXInd a s := rfl
  rw [hexec, execJsrAbsXInd, endStackN_eq]
  have hsp : (push16n (s.pc + 2) s).sp = s.sp - 2 := congrArg State.sp (push16n_eq (s.pc + 2) s)
  simp only [jumpTo_sp, jumpTo_e, hsp, push16n_e]
  rfl

/-- The state after JSL: PBR is pushed before the bank byte is fetched, and the return address after it (R218, R64). -/
def farCalled (l : Addr) (s : State) : State :=
  { s with
    mem := (push16n (s.pc + 3) (push8n s.pbr s)).mem
    sp := widePointer s 3
    pc := offsetOf l
    pbr := lateFetch s (push8n s.pbr s) 3 (bankOf l) }

theorem exec_jsl (l : Addr) (s : State) : exec (.jsl l) s = .next (farCalled l s) := by
  have hexec : exec (.jsl l) s = execJsl l s := rfl
  have hsp : (push16n (s.pc + 3) (push8n s.pbr s)).sp = s.sp - 3 := by
    rw [push16n_sp, push8n_sp]
    bv_omega
  rw [hexec, execJsl]
  refine congrArg Host.Outcome.next (State.eq_of_fields ?c ?x ?y ?sp ?d ?dbr ?pbr ?pc ?status ?e ?run ?nmi ?abort
    ?mem ?inputs ?params)
  case sp => rw [endStackN_sp, jumpFar_sp, hsp, jumpFar_e, push16n_e, push8n_e, farCalled, widePointer]
  all_goals simp [farCalled]

/-- The three bytes that JSL leaves on the stack. -/
theorem farCalled_read (l : Addr) (s : State) (a : Addr) :
    (farCalled l s).read a =
      if a = stackAddr (s.sp - 2) then lowByte (s.pc + 3)
      else if a = stackAddr (s.sp - 1) then highByte (s.pc + 3)
      else if a = stackAddr s.sp then s.pbr else s.read a := by
  have htwo : s.sp - 1 - 1 = s.sp - 2 := by bv_omega
  have hmem : (farCalled l s).mem = (push16n (s.pc + 3) (push8n s.pbr s)).mem := rfl
  simp only [State.read_congr hmem, push16n_read, push8n_read, push8n_sp, htwo]

/-- Settles O42: the next states are those of `exec_jsrAbs`, `exec_jsrAbsXInd` and `exec_jsl`; memory is that after the
pushes. -/
theorem subroutineCalls : Obligations.SubroutineCalls := by
  intro s a l second wide
  refine ⟨⟨_, exec_jsrAbs a s, rfl, push16_read_high _ s, push16_read_low _ s, push16_memoryKept _ s⟩,
    ⟨_, exec_jsrAbsXInd a s, rfl, push16n_read_high _ s, push16n_read_low _ s, push16n_memoryKept _ s,
      readWord_bankAddr ..⟩,
    ⟨_, exec_jsl l s, rfl, ?bank, ?high, ?low, ?kept, rfl⟩⟩
  case bank =>
    rw [farCalled_read, if_neg (stackAddr_ne_sub _ (by decide)), if_neg (stackAddr_ne_sub _ (by decide)), if_pos rfl]
  case high => rw [farCalled_read, if_neg (stackAddr_sub_ne _ (by decide)), if_pos rfl]
  case low => rw [farCalled_read, if_pos rfl]
  case kept =>
    intro b hb
    simp only [List.mem_cons, List.not_mem_nil, or_false, not_or] at hb
    obtain ⟨h0, h1, h2⟩ := hb
    rw [farCalled_read, if_neg h2, if_neg h1, if_neg h0]

/-! ### The late bank byte of JSL -/

/-- A byte of the instruction, fetched after PBR was pushed onto it or not: it is the byte that is there then. -/
theorem lateFetch_push8n {s : State} {n : Nat} {decoded : Byte} (h : s.read (fetchAddr s n) = decoded) (v : Byte) :
    lateFetch s (push8n v s) n decoded = if stackAddr s.sp = fetchAddr s n then v else decoded := by
  have hnow : lateFetch s (push8n v s) n decoded = (push8n v s).read (fetchAddr s n) := by
    unfold lateFetch
    split
    case isTrue heq => rw [heq, h]
    case isFalse => rfl
  rw [hnow, push8n_read, h]
  exact if_congr eq_comm rfl rfl

/-- Settles O43: the step is `exec` of that JSL (O6), and its bank byte is the one in memory after the push. -/
theorem lateBankByte : Obligations.LateBankByte := by
  intro s t l hquiet hbytes hstep
  have hbank : s.read (fetchAddr s 3) = bankOf l := instrByte_of_bytesAtPc hbytes rfl
  have hdecode : decode (getFlag s.p .m) (getFlag s.p .x) (encode true true (.jsl l)) = .ok (.jsl l, []) :=
    (congrArg _ (List.append_nil _).symm).trans
      (decodeOfEncode (getFlag s.p .m) (getFlag s.p .x) (.jsl l) [] rfl)
  rw [stepRunsDecodedInstruction s _ _ hquiet hbytes hdecode, exec_jsl] at hstep
  obtain rfl := Host.Outcome.next.inj hstep
  exact lateFetch_push8n hbank s.pbr

/-! ### Returns -/

/-- RTS pulls two bytes and adds 1 (R219). -/
theorem exec_rts (s : State) :
    exec .rts s = .next { s with
      sp := pullPointer s.e (pullPointer s.e s.sp)
      pc := joinBytes (s.read (stackAddr (pullPointer s.e (pullPointer s.e s.sp))))
        (s.read (stackAddr (pullPointer s.e s.sp))) + 1 } := rfl

/-- RTL pulls three bytes with the 16-bit stack pointer and adds 1 to the 16-bit address (R220). -/
theorem exec_rtl (s : State) :
    exec .rtl s = .next { s with
      sp := if s.e then joinBytes 0x01 (lowByte (s.sp + 3)) else s.sp + 3
      pc := joinBytes (s.read (stackAddr (s.sp + 2))) (s.read (stackAddr (s.sp + 1))) + 1
      pbr := s.read (stackAddr (s.sp + 3)) } := by
  have hexec : exec .rtl s = execRtl s := rfl
  have hthree : s.sp + 2 + 1 = s.sp + 3 := by bv_omega
  simp only [hexec, execRtl, pull16n_eq, pull8n, hthree, endStackN_eq]
  rfl

/-- Settles O44: `exec_rts` and `exec_rtl`. -/
theorem subroutineReturns : Obligations.SubroutineReturns := fun s => ⟨exec_rts s, exec_rtl s⟩

/-- A pull reads where the push before it wrote, with S in page 1 in emulation mode. -/
theorem pullPointer_pushPointer {e : Bool} {sp : Word} (h : e = true → highByte sp = 0x01) :
    pullPointer e (pushPointer e sp) = sp := by
  cases e with
  | false => exact BitVec.sub_add_cancel sp 1
  | true => exact pageOne_add_back (h rfl) 1

theorem rts_undoes_jsrAbs {s t h u : State} {a : Word} (hstack : EmulationStack s)
    (ht : exec (.jsrAbs a) s = .next t) (he : h.e = t.e) (hsp : h.sp = t.sp)
    (hframe : ∀ b ∈ [stackAddr s.sp, stackAddr (pushPointer s.e s.sp)], h.read b = t.read b)
    (hu : exec .rts h = .next u) : u.pc = s.pc + 3 ∧ u.sp = s.sp := by
  rw [exec_jsrAbs] at ht
  obtain rfl := Host.Outcome.next.inj ht
  simp only [List.forall_mem_cons] at hframe
  obtain ⟨hf0, hf1, -⟩ := hframe
  have hpush : s.e = true → highByte (pushPointer s.e s.sp) = 0x01 := fun hemu => by rw [hemu, highByte_pushPointer]
  have hp1 : pullPointer h.e h.sp = pushPointer s.e s.sp := by
    rw [he, hsp]
    exact pullPointer_pushPointer hpush
  have hp2 : pullPointer h.e (pullPointer h.e h.sp) = s.sp := by
    rw [hp1, he]
    exact pullPointer_pushPointer hstack
  have hhigh : h.read (stackAddr s.sp) = highByte (s.pc + 2) := hf0.trans (push16_read_high _ s)
  have hlow : h.read (stackAddr (pushPointer s.e s.sp)) = lowByte (s.pc + 2) := hf1.trans (push16_read_low _ s)
  rw [exec_rts, hp2, hp1, hhigh, hlow, joinBytes_high_low] at hu
  obtain rfl := Host.Outcome.next.inj hu
  exact ⟨by bv_omega, rfl⟩

theorem rtl_undoes_jsl {s t h u : State} {l : Addr} (hnative : s.e = false)
    (ht : exec (.jsl l) s = .next t) (he : h.e = t.e) (hsp : h.sp = t.sp)
    (hframe : ∀ b ∈ [stackAddr s.sp, stackAddr (s.sp - 1), stackAddr (s.sp - 2)], h.read b = t.read b)
    (hu : exec .rtl h = .next u) : u.pc = s.pc + 4 ∧ u.pbr = s.pbr ∧ u.sp = s.sp := by
  obtain ⟨t', ht', -, hbank, hhigh, hlow, -⟩ := (subroutineCalls s 0 l).2.2
  obtain rfl := Host.Outcome.next.inj (ht.symm.trans ht')
  rw [exec_jsl] at ht
  obtain rfl := Host.Outcome.next.inj ht
  simp only [List.forall_mem_cons] at hframe
  obtain ⟨hf0, hf1, hf2, -⟩ := hframe
  have hsp3 : h.sp = s.sp - 3 := by rw [hsp, farCalled, widePointer, hnative, if_neg Bool.false_ne_true]
  have h1 : h.sp + 1 = s.sp - 2 := by rw [hsp3]; bv_omega
  have h2 : h.sp + 2 = s.sp - 1 := by rw [hsp3]; bv_omega
  have h3 : h.sp + 3 = s.sp := by rw [hsp3]; bv_omega
  have he' : h.e = false := he.trans hnative
  rw [exec_rtl, h1, h2, h3, hf0, hf1, hf2, hbank, hhigh, hlow, joinBytes_high_low, he'] at hu
  obtain rfl := Host.Outcome.next.inj hu
  exact ⟨by bv_omega, rfl, rfl⟩

/-- Settles O45: `rts_undoes_jsrAbs` and `rtl_undoes_jsl`. -/
theorem returnsUndoCalls : Obligations.ReturnsUndoCalls :=
  ⟨fun _ _ _ _ _ => rts_undoes_jsrAbs, fun _ _ _ _ _ => rtl_undoes_jsl⟩

end Sys2Proof.Machine
end

/-! ## Addresses and data (O25 to O27) -/

section
namespace Sys2Proof.Machine

/-! ### Direct locations -/

theorem toNat_inc16_bankAddr_zero (a : Word) : (inc16 (bankAddr 0x00 a)).toNat = (a.toNat + 1) % 65536 := by
  rw [inc16_bankAddr, toNat_bankAddr, BitVec.toNat_add]
  simp

theorem toNat_bankAddr_zero (a : Word) : (bankAddr 0x00 a).toNat = a.toNat := by
  rw [toNat_bankAddr]
  simp

theorem pageWrap_iff (s : State) : pageWrap s = true ↔ s.e = true ∧ lowByte s.d = 0x00 := by
  rw [pageWrap, Bool.and_eq_true, decide_eq_true_iff]

/-- Inside the page of DH the low byte of the address wraps (R112). -/
theorem toNat_dp_of_pageWrap {s : State} (h : pageWrap s = true) (k : Nat) :
    (dp s k).toNat = (highByte s.d).toNat * 256 + k % 256 := by
  rw [dp, if_pos h, toNat_bankAddr_zero, toNat_joinBytes, BitVec.toNat_ofNat]

/-- Otherwise the address is a 16-bit sum in bank 0 (R112). -/
theorem toNat_dp_of_not_pageWrap {s : State} (h : ¬pageWrap s = true) (k : Nat) :
    (dp s k).toNat = (s.d.toNat + k) % 65536 := by
  rw [dp, if_neg h, toNat_bankAddr_zero, BitVec.toNat_add, BitVec.toNat_ofNat]
  omega

theorem toNat_dpNext_of_not_pageWrap {s : State} (h : ¬pageWrap s = true) (k : Nat) :
    (dpNext s k).toNat = (s.d.toNat + k + 1) % 65536 := by
  rw [dpNext, if_neg h, dp, if_neg h, toNat_inc16_bankAddr_zero, BitVec.toNat_add, BitVec.toNat_ofNat]
  omega

/-- Settles O25: the two cases of the page-wrap condition. -/
theorem directLocations : Obligations.DirectLocations := by
  intro s k
  constructor
  case left =>
    intro he hd
    have hwrap : pageWrap s = true := (pageWrap_iff s).mpr ⟨he, hd⟩
    have hnext : dpNext s k = dp s (k + 1) := if_pos hwrap
    exact ⟨toNat_dp_of_pageWrap hwrap k, hnext ▸ toNat_dp_of_pageWrap hwrap (k + 1)⟩
  case right =>
    intro h
    have hwrap : ¬pageWrap s = true := by
      rw [pageWrap_iff, not_and_or, Bool.not_eq_true]
      exact h
    exact ⟨toNat_dp_of_not_pageWrap hwrap k, toNat_dpNext_of_not_pageWrap hwrap k⟩

/-! ### Effective addresses -/

/-- The datum of an effective address is at the number `n` and the next one, modulo 2^24 (R137). -/
def EA.IsAt (ea : EA) (n : Nat) : Prop :=
  ea.a0.toNat = n % 16777216 ∧ ea.a1.toNat = (n + 1) % 16777216

theorem linear_isAt {a : Addr} {n : Nat} (h : a.toNat = n % 16777216) : (linear a).IsAt n := by
  refine ⟨h, ?_⟩
  simp only [linear, inc24, BitVec.toNat_add, BitVec.reduceToNat, h]
  omega

/-- An address with an index is a sum of 24 bits, which may carry into the bank (R118, R123). -/
theorem linear_indexedAddr_isAt {a : Addr} {n : Nat} (h : a.toNat = n) (index : Word) :
    (linear (indexedAddr a index)).IsAt (n + index.toNat) := by
  refine linear_isAt ?_
  have hindex := index.isLt
  simp only [indexedAddr, BitVec.toNat_add, BitVec.toNat_setWidth, h]
  omega

theorem linear_isAt_of_eq {a : Addr} {n : Nat} (h : a.toNat = n) : (linear a).IsAt n :=
  linear_isAt (by rw [← h, Nat.mod_eq_of_lt a.isLt])

/-- The number of a word in memory (R50). -/
def wordAt (s : State) (lo hi : Addr) : Nat := (s.read lo).toNat + 256 * (s.read hi).toNat

theorem toNat_bankAddr_joinBytes (bank : Byte) (s : State) (lo hi : Addr) :
    (bankAddr bank (joinBytes (s.read hi) (s.read lo))).toNat = bank.toNat * 65536 + wordAt s lo hi := by
  rw [toNat_bankAddr, toNat_joinBytes, wordAt]
  omega

theorem toNat_dpLongPointer (s : State) (o : Byte) :
    (dpLongPointer s o).toNat =
      wordAt s (dp s o.toNat) (inc16 (dp s o.toNat)) + 65536 * (s.read (inc16 (inc16 (dp s o.toNat)))).toNat := by
  rw [dpLongPointer, State.readWord, toNat_bankAddr_joinBytes]
  omega

/-- The datum of a stack-relative operand is in bank 0 (R127). -/
theorem toNat_eaStk (s : State) (o : Byte) :
    (eaStk o s).a0.toNat = (s.sp.toNat + o.toNat) % 65536 ∧ (eaStk o s).a1.toNat = (s.sp.toNat + o.toNat + 1) % 65536 := by
  have hsum : (s.sp + extendByte o).toNat = (s.sp.toNat + o.toNat) % 65536 := by
    rw [BitVec.toNat_add, toNat_extendByte]
  constructor
  · simp only [eaStk, inBank, stackRelative, toNat_bankAddr_zero, hsum]
  · simp only [eaStk, inBank, stackRelative, toNat_inc16_bankAddr_zero, hsum]
    omega

/-- Settles O26: each mode is a direct or stack location, or a linear address whose number its pointer and its index
give. -/
theorem effectiveAddresses : Obligations.EffectiveAddresses := by
  intro s o a l word bank direct p0 far stack at_
  have habs : (bankAddr s.dbr a).toNat = bank + a.toNat := toNat_bankAddr s.dbr a
  have hdirect (k : Nat) : (bankAddr s.dbr (dpPointer s k)).toNat = bank + direct k := toNat_bankAddr_joinBytes ..
  have hfar : (dpLongPointer s o).toNat = far := toNat_dpLongPointer s o
  have hstack : (bankAddr s.dbr (s.readWord (stackRelative s o))).toNat = bank + word stack (inc16 stack) :=
    toNat_bankAddr_joinBytes ..
  obtain ⟨hstk0, hstk1⟩ := toNat_eaStk s o
  exact ⟨rfl, rfl, rfl, hstk0, hstk1, linear_isAt_of_eq (hdirect _), linear_indexedAddr_isAt (hdirect _) _,
    linear_isAt_of_eq (hdirect _), linear_isAt_of_eq hfar, linear_indexedAddr_isAt hfar _, linear_isAt_of_eq habs,
    linear_indexedAddr_isAt habs _, linear_indexedAddr_isAt habs _, linear_isAt_of_eq rfl,
    linear_indexedAddr_isAt rfl _, linear_indexedAddr_isAt hstack _⟩

/-! ### Data through an effective address -/

/-- A datum read after it was written is the value's low `w` bits (R111). -/
theorem readData_writeData {ea : EA} (hne : ea.a1 ≠ ea.a0) (w : Width) (v : Word) (s : State) :
    readData ea w (writeData ea w v s) = truncTo w v := by
  cases w
  case w8 => rw [readData, writeData_read_low .w8 v s hne, truncTo]
  case w16 => rw [readData, writeData_read_low .w16 v s hne, writeData_read_high, joinBytes_high_low, truncTo]

/-- Settles O27: in either order of the writes the two bytes have different addresses in every mode (`Mode.ea_ne`). -/
theorem dataThroughModes : Obligations.DataThroughModes := by
  intro s mode v ea
  refine ⟨toNat_extendByte _, ?_, fun w => readData_writeData (mode.ea_ne s) w v s,
    fun w => readData_writeBack (mode.ea_ne s) w v s⟩
  rw [readData, toNat_joinBytes]
  omega

end Sys2Proof.Machine
end

/-! ## The stack instructions (O55 to O58) -/

section
namespace Sys2Proof.Machine

/-! ### Pushes of a register -/

/-- PHA, PHX, PHY, PHB, PHK and PHP are one push, each of its own register at its width. -/
theorem exec_registerPushes (s : State) (form : Instr × Width × Word)
    (h : form ∈ [(.pha, wm s, s.c), (.phx, wx s, s.x), (.phy, wx s, s.y), (.phb, .w8, extendByte s.dbr),
      (.phk, .w8, extendByte s.pbr), (.php, .w8, extendByte s.p)]) :
    exec form.1 s = .next (advance 1 (pushAt form.2.1 form.2.2 s)) := by
  have hbyte (b : Byte) : pushAt .w8 (extendByte b) s = push8 b s := by rw [pushAt, lowByte_extendByte]
  simp only [List.mem_cons, List.not_mem_nil, or_false] at h
  obtain rfl | rfl | rfl | rfl | rfl | rfl := h
  · rfl
  · rfl
  · rfl
  all_goals
    simp only [hbyte]
    rfl

/-- Settles O55: one byte or two, by the width; where they stand and what stays is said by the lemmas of `push8` and
`push16`. -/
theorem registerPushes : Obligations.RegisterPushes := by
  intro s form hform below
  refine ⟨_, exec_registerPushes s form hform, ?_⟩
  obtain ⟨i, w, v⟩ := form
  cases w
  case w8 => exact ⟨rfl, push8_read_same _ s, push8_memoryKept _ s⟩
  case w16 => exact ⟨rfl, push16_read_high v s, push16_read_low v s, push16_memoryKept v s⟩

/-! ### Pushes of 16 bits -/

/-- PEA, PEI, PER and PHD push a word with the 16-bit stack pointer, and end with SH = $01 in emulation mode (R141). -/
theorem pushEffective_next (v : Word) (len : Nat) (s : State) :
    pushEffective v len s = .next { s with
      mem := (push16n v s).mem, sp := widePointer s 2, pc := s.pc + BitVec.ofNat 16 len } := by
  have hsp : (push16n v s).sp = s.sp - 2 := congrArg State.sp (push16n_eq v s)
  rw [pushEffective, endStackN_eq, hsp]
  rfl

/-- The word that each of the four pushes, and its length. -/
theorem exec_wordPushes (s : State) (v r : Word) (o : Byte) (form : Instr × Word × Word)
    (h : form ∈ [(.pea v, v, 3),
      (.pei o, joinBytes (s.read (inc16 (dp s o.toNat))) (s.read (dp s o.toNat)), 2),
      (.per r, BitVec.ofNat 16 (s.pc.toNat + 3 + r.toNat), 3), (.phd, s.d, 1)]) :
    exec form.1 s = .next { s with
      mem := (push16n form.2.1 s).mem, sp := widePointer s 2, pc := s.pc + form.2.2 } := by
  simp only [List.mem_cons, List.not_mem_nil, or_false] at h
  obtain rfl | rfl | rfl | rfl := h
  · exact pushEffective_next v 3 s
  · exact pushEffective_next (peiWord o s) 2 s
  · rw [← pc_add_three_add]
    exact pushEffective_next (s.pc + 3 + r) 3 s
  · exact pushEffective_next s.d 1 s

/-- Settles O56: the four are one push (`exec_wordPushes`); the bytes are those of `push16n`. -/
theorem wordPushes : Obligations.WordPushes := by
  intro s v r o form hform
  exact ⟨_, exec_wordPushes s v r o form hform, rfl, push16n_read_high _ s, push16n_read_low _ s, push16n_memoryKept _ s⟩

/-! ### Pulls -/

/-- The value that a pull of a `w`-bit register takes. -/
def pulledValue (w : Width) (s : State) : Word :=
  match w with
  | .w8 => extendByte (s.read (stackAddr (pullPointer s.e s.sp)))
  | .w16 => joinBytes (s.read (stackAddr (pullPointer s.e (pullPointer s.e s.sp))))
      (s.read (stackAddr (pullPointer s.e s.sp)))

/-- S after it. -/
def pulledPointer (w : Width) (s : State) : Word :=
  match w with
  | .w8 => pullPointer s.e s.sp
  | .w16 => pullPointer s.e (pullPointer s.e s.sp)

theorem pullAt_eq (w : Width) (s : State) : pullAt w s = (pulledValue w s, { s with sp := pulledPointer w s }) := by
  cases w <;> rfl

/-- A pulled value has `w` bits. -/
theorem truncTo_pulledValue (w : Width) (s : State) : truncTo w (pulledValue w s) = pulledValue w s := by
  cases w
  case w8 => exact truncTo_w8_extendByte _
  case w16 => rfl

theorem exec_pla (s : State) :
    exec .pla s = .next { s with
      c := mergeAcc (wm s) s.c (pulledValue (wm s) s)
      sp := pulledPointer (wm s) s
      p := setNZ (wm s) (pulledValue (wm s) s) s.p
      pc := s.pc + 1 } := by
  have hexec : exec .pla s = execPla s := rfl
  rw [hexec, execPla, pullAt_eq]
  rfl

theorem exec_plx (s : State) :
    exec .plx s = .next { s with
      x := pulledValue (wx s) s
      sp := pulledPointer (wx s) s
      p := setNZ (wx s) (pulledValue (wx s) s) s.p
      pc := s.pc + 1 } := by
  have hexec : exec .plx s = execPlx s := rfl
  rw [hexec, execPlx, pullAt_eq]
  simp only [setX, truncTo_pulledValue]
  rfl

theorem exec_ply (s : State) :
    exec .ply s = .next { s with
      y := pulledValue (wx s) s
      sp := pulledPointer (wx s) s
      p := setNZ (wx s) (pulledValue (wx s) s) s.p
      pc := s.pc + 1 } := by
  have hexec : exec .ply s = execPly s := rfl
  rw [hexec, execPly, pullAt_eq]
  simp only [setY, truncTo_pulledValue]
  rfl

theorem exec_plb (s : State) :
    exec .plb s = .next { s with
      dbr := s.read (stackAddr (pullPointer s.e s.sp))
      sp := pullPointer s.e s.sp
      p := setNZ .w8 (pulledValue .w8 s) s.p
      pc := s.pc + 1 } := rfl

/-- Settles O57: one equation of `exec` for each of the four; n and z are those of the pulled value, which has the width
at which `SetNZ` takes it. -/
theorem registerPulls : Obligations.RegisterPulls := by
  intro s sp1 sp2 pulled after flags
  have hflags (w : Width) := nzOf_and_flagsKept_setNZ (truncTo_pulledValue w s) s.p
  have hacc : truncTo (wm s) (mergeAcc (wm s) s.c (pulledValue (wm s) s)) = pulledValue (wm s) s :=
    (truncTo_mergeAcc ..).trans (truncTo_pulledValue ..)
  have hb (h : wm s = .w8) : highByte (mergeAcc (wm s) s.c (pulledValue (wm s) s)) = highByte s.c := by
    rw [h, highByte_mergeAcc]
  exact ⟨⟨_, exec_pla s, rfl, hacc, hb, hflags (wm s)⟩, ⟨_, exec_plx s, rfl, hflags (wx s)⟩,
    ⟨_, exec_ply s, rfl, hflags (wx s)⟩, ⟨_, exec_plb s, rfl, hflags .w8⟩⟩

/-- PLD pulls 16 bits with the 16-bit stack pointer (R267). -/
theorem exec_pld (s : State) :
    exec .pld s = .next { s with
      d := joinBytes (s.read (stackAddr (s.sp + 2))) (s.read (stackAddr (s.sp + 1)))
      sp := if s.e then joinBytes 0x01 (lowByte (s.sp + 2)) else s.sp + 2
      p := setNZ .w16 (joinBytes (s.read (stackAddr (s.sp + 2))) (s.read (stackAddr (s.sp + 1)))) s.p
      pc := s.pc + 1 } := by
  have hexec : exec .pld s = execPld s := rfl
  rw [hexec, execPld, pull16n_eq, endStackN_eq]
  rfl

theorem exec_plp (s : State) :
    exec .plp s = .next { s with
      sp := pullPointer s.e s.sp
      pc := s.pc + 1
      p := if s.e then s.read (stackAddr (pullPointer s.e s.sp)) ||| 0x30
        else s.read (stackAddr (pullPointer s.e s.sp))
      x := if !s.e && getFlag (s.read (stackAddr (pullPointer s.e s.sp))) .x then extendByte (lowByte s.x) else s.x
      y := if !s.e && getFlag (s.read (stackAddr (pullPointer s.e s.sp))) .x then extendByte (lowByte s.y)
        else s.y } := by
  have hexec : exec .plp s = execPlp s := rfl
  rw [hexec, execPlp, pull8_eq, loadP_eq]
  rfl

/-- Settles O58: `exec_pld` and `exec_plp`. -/
theorem directAndStatusPulls : Obligations.DirectAndStatusPulls := fun s =>
  ⟨⟨_, exec_pld s, rfl, nzOf_and_flagsKept_setNZ rfl s.p⟩, exec_plp s⟩

end Sys2Proof.Machine
end

/-! ## Transfers to index registers, D and S (O59) -/

section
namespace Sys2Proof.Machine

/-- TAX, TSX and TYX are one transfer to X at the index width (R280, R286, R291). -/
theorem exec_transfersToX (s : State) (form : Instr × Word) (h : form ∈ [((.tax : Instr), s.c), (.tsx, s.sp), (.tyx, s.y)]) :
    exec form.1 s = .next { s with
      x := truncTo (wx s) form.2, p := setNZ (wx s) (truncTo (wx s) form.2) s.p, pc := s.pc + 1 } := by
  have htransfer (v : Word) : transferToX v s = .next { s with
      x := truncTo (wx s) v, p := setNZ (wx s) (truncTo (wx s) v) s.p, pc := s.pc + 1 } := by
    simp only [transferToX, setX, truncTo_truncTo]
    rfl
  simp only [List.mem_cons, List.not_mem_nil, or_false] at h
  obtain rfl | rfl | rfl := h <;> exact htransfer _

/-- TAY and TXY are one transfer to Y at the index width (R281, R289). -/
theorem exec_transfersToY (s : State) (form : Instr × Word) (h : form ∈ [((.tay : Instr), s.c), (.txy, s.x)]) :
    exec form.1 s = .next { s with
      y := truncTo (wx s) form.2, p := setNZ (wx s) (truncTo (wx s) form.2) s.p, pc := s.pc + 1 } := by
  have htransfer (v : Word) : transferToY v s = .next { s with
      y := truncTo (wx s) v, p := setNZ (wx s) (truncTo (wx s) v) s.p, pc := s.pc + 1 } := by
    simp only [transferToY, setY, truncTo_truncTo]
    rfl
  simp only [List.mem_cons, List.not_mem_nil, or_false] at h
  obtain rfl | rfl := h <;> exact htransfer _

theorem exec_tcd (s : State) :
    exec .tcd s = .next { s with d := s.c, p := setNZ .w16 s.c s.p, pc := s.pc + 1 } := rfl

/-- Page 1 as numbers. -/
theorem pageOne_eq_ofNat (v : Word) : joinBytes 0x01 (lowByte v) = BitVec.ofNat 16 (256 + v.toNat % 256) := by
  apply BitVec.eq_of_toNat_eq
  simp only [toNat_joinBytes, toNat_lowByte, BitVec.toNat_ofNat, BitVec.reduceToNat]
  omega

/-- TCS and TXS write S alone, SL alone in emulation mode (R283, R288). -/
theorem exec_transfersToS (s : State) (form : Instr × Word) (h : form ∈ [((.tcs : Instr), s.c), (.txs, s.x)]) :
    exec form.1 s = .next { s with
      sp := BitVec.ofNat 16 (if s.e then 256 + form.2.toNat % 256 else form.2.toNat), pc := s.pc + 1 } := by
  have hsp (v : Word) : (if s.e then joinBytes 0x01 (lowByte v) else v) =
      BitVec.ofNat 16 (if s.e then 256 + v.toNat % 256 else v.toNat) := by
    cases s.e
    · simp
    · exact pageOne_eq_ofNat v
  simp only [List.mem_cons, List.not_mem_nil, or_false] at h
  obtain rfl | rfl := h <;>
    · rw [← hsp]
      rfl

/-- Settles O59: one equation of `exec` for each kind of transfer. -/
theorem transfersToIndexDirectAndStack : Obligations.TransfersToIndexDirectAndStack := by
  intro s flags
  have hflags (v : Word) := nzOf_and_flagsKept_setNZ (truncTo_truncTo (wx s) v) s.p
  exact ⟨fun form h => ⟨_, exec_transfersToX s form h, rfl, toNat_truncTo .., hflags form.2⟩,
    fun form h => ⟨_, exec_transfersToY s form h, rfl, toNat_truncTo .., hflags form.2⟩,
    ⟨_, exec_tcd s, rfl, nzOf_and_flagsKept_setNZ rfl s.p⟩, exec_transfersToS s⟩

end Sys2Proof.Machine
end

/-! ## SEP and XCE (O49, O50) -/

section
namespace Sys2Proof.Machine

/-- SEP sets its width-safe mask in P, and clears XH and YH where x is then 1 (R208). -/
theorem exec_sep (mask : Byte) (s : State) :
    exec (.sep mask) s = .next { s with
      p := s.p ||| widthSafeMask s.e mask
      x := if getFlag (s.p ||| widthSafeMask s.e mask) .x then extendByte (lowByte s.x) else s.x
      y := if getFlag (s.p ||| widthSafeMask s.e mask) .x then extendByte (lowByte s.y) else s.y
      pc := s.pc + 2 } := by
  have hexec : exec (.sep mask) s = execSep mask s := rfl
  rw [hexec, execSep, clearIndexHigh_eq]
  rfl

/-- Settles O49: `exec_sep`, and `getFlag_widthSafeMask` for the flags that the mask selects. -/
theorem sepInstruction : Obligations.SepInstruction := by
  intro s mask
  refine ⟨_, exec_sep mask s, rfl, fun f => ?_, rfl, rfl⟩
  rw [getFlag_or, getFlag_widthSafeMask]

/-- XCE to native mode exchanges c and e alone (R209, D13). -/
theorem exec_xce_to_native {s : State} (h : getFlag s.p .c = false) :
    exec .xce s = .next { s with e := false, p := setFlag s.p .c s.e, pc := s.pc + 1 } := by
  have hexec : exec .xce s = execXce s := rfl
  rw [hexec, execXce, if_neg (by simp [h]), exchangeCE, h]
  rfl

/-- XCE to emulation mode also forces m, x, XH, YH and SH (R31). -/
theorem exec_xce_to_emulation {s : State} (h : getFlag s.p .c = true) :
    exec .xce s = .next { s with
      e := true
      p := setFlag (setFlag (setFlag s.p .c s.e) .m true) .x true
      x := extendByte (lowByte s.x)
      y := extendByte (lowByte s.y)
      sp := joinBytes 0x01 (lowByte s.sp)
      pc := s.pc + 1 } := by
  have hexec : exec .xce s = execXce s := rfl
  rw [hexec, execXce, if_pos h, exchangeCE, h]
  rfl

/-- Settles O50: the mode that results is the old c. -/
theorem xceInstruction : Obligations.XceInstruction := by
  intro s
  cases hc : getFlag s.p .c with
  | false =>
    have hkept : flagsKept [.m, .x] s.p (setFlag s.p .c s.e) := flagsKept_setFlag (by decide) _ _
    refine ⟨_, exec_xce_to_native hc, rfl, getFlag_setFlag_same .., flagsKept_setFlag (by decide) _ _,
      fun he => ?_, fun _ => ⟨hkept, rfl, rfl, rfl⟩⟩
    exact absurd he Bool.false_ne_true
  | true =>
    have hkept : flagsKept [.n, .v, .d, .i, .z] s.p (setFlag (setFlag (setFlag s.p .c s.e) .m true) .x true) :=
      flagsKept_trans (flagsKept_setFlag (by decide) _ _)
        (flagsKept_trans (flagsKept_setFlag (by decide) _ _) (flagsKept_setFlag (by decide) _ _))
    refine ⟨_, exec_xce_to_emulation hc, rfl, ?_, hkept, fun _ => ⟨?_, ?_, rfl, rfl, rfl⟩, fun he => ?_⟩
    · simp [getFlag_setFlag]
    · simp [getFlag_setFlag]
    · exact getFlag_setFlag_same ..
    · exact absurd he.symm Bool.false_ne_true

end Sys2Proof.Machine
end

/-! ## Block moves (O53, O54) -/

section
namespace Sys2Proof.Machine

/-- The state after one byte of a block move (R249). -/
def movedByte (step : Word) (dst src : Byte) (s : State) : State :=
  { s with
    mem := (s.write (bankAddr dst s.y) (s.read (bankAddr src s.x))).mem
    c := s.c - 1
    x := truncTo (wx s) (s.x + step)
    y := truncTo (wx s) (s.y + step)
    dbr := if s.params.blockMoveSetsDbr then dst else s.dbr
    pc := if s.c = 0x0000 then s.pc + 3 else s.pc }

/-- MVN and MVP are one move, with the step of their direction (R247, R248). -/
theorem exec_blockMove (s : State) (dst src : Byte) (form : Instr × Word)
    (h : form ∈ [(.mvn dst src, 1), (.mvp dst src, 0xFFFF)]) :
    exec form.1 s = .next (movedByte form.2 dst src s) := by
  have hlast : s.c - 1 = 0xFFFF ↔ s.c = 0x0000 := by
    constructor <;> intro h <;> bv_omega
  have hmove (step : Word) : blockMove step dst src s = .next (movedByte step dst src s) := by
    rw [blockMove, setMoveBank_eq, countMove, movedByte]
    simp only [setY_c, setX_c, State.write_c, hlast]
    rfl
  simp only [List.mem_cons, List.not_mem_nil, or_false] at h
  obtain rfl | rfl := h <;> exact hmove _

section
variable (step : Word) (dst src : Byte) (s : State)

theorem movedByte_c : (movedByte step dst src s).c = s.c - 1 := rfl

theorem movedByte_x : (movedByte step dst src s).x = truncTo (wx s) (s.x + step) := rfl

theorem movedByte_y : (movedByte step dst src s).y = truncTo (wx s) (s.y + step) := rfl

theorem movedByte_pc : (movedByte step dst src s).pc = if s.c = 0x0000 then s.pc + 3 else s.pc := rfl

end

theorem movedByte_memoryKept (step : Word) (dst src : Byte) (s : State) :
    memoryKept [bankAddr dst s.y] s (movedByte step dst src s) := fun a ha =>
  State.read_write_of_ne s _ a _ (mt List.mem_singleton.mpr ha)

/-- Settles O53: the state is `movedByte`. -/
theorem blockMoveByte : Obligations.BlockMoveByte := by
  intro s dst src form hform
  exact ⟨_, exec_blockMove s dst src form hform, rfl, State.read_write_same s _ _, movedByte_memoryKept _ _ _ s⟩

/-! ### The whole move -/

section
variable {dst src : Byte} {step : Word} {run : Nat → State}

/-- With 16-bit index registers every byte moves X and Y by the step, modulo 2^16, and C down by one. -/
theorem blockMove_registers (hrun : ∀ k, run (k + 1) = movedByte step dst src (run k))
    (hwide : getFlag (run 0).p .x = false) (k : Nat) :
    (run k).p = (run 0).p ∧ (run k).c = (run 0).c - BitVec.ofNat 16 k ∧
      (run k).x = (run 0).x + step * BitVec.ofNat 16 k ∧ (run k).y = (run 0).y + step * BitVec.ofNat 16 k := by
  induction k with
  | zero => simp
  | succ k ih =>
    obtain ⟨hp, hc, hx, hy⟩ := ih
    have hwx : wx (run k) = .w16 := by rw [wx, hp, hwide]; rfl
    have hstep (v : Word) : v + step * BitVec.ofNat 16 k + step = v + step * BitVec.ofNat 16 (k + 1) := by
      rw [BitVec.ofNat_add, BitVec.mul_add, BitVec.mul_one, BitVec.add_assoc]
    rw [hrun k]
    refine ⟨hp, ?_, ?_, ?_⟩
    · rw [movedByte_c, hc, BitVec.ofNat_add, ← BitVec.sub_sub]
      rfl
    · rw [movedByte_x, hwx, truncTo, hx, hstep]
    · rw [movedByte_y, hwx, truncTo, hy, hstep]

/-- While C has not run out the PC stays at the instruction. -/
theorem blockMove_pc (hrun : ∀ k, run (k + 1) = movedByte step dst src (run k))
    (hwide : getFlag (run 0).p .x = false) (k : Nat) (hk : k ≤ (run 0).c.toNat) : (run k).pc = (run 0).pc := by
  induction k with
  | zero => rfl
  | succ k ih =>
    obtain ⟨-, hc, -, -⟩ := blockMove_registers hrun hwide k
    have hmore : (run k).c ≠ 0x0000 := by
      rw [hc]
      intro h
      bv_omega
    rw [hrun k, movedByte_pc, if_neg hmore]
    exact ih (by omega)

/-- Only the destination bank is written. -/
theorem blockMove_read_other_bank (hrun : ∀ k, run (k + 1) = movedByte step dst src (run k)) {a : Addr}
    (ha : bankOf a ≠ dst) (k : Nat) : (run k).read a = (run 0).read a := by
  induction k with
  | zero => rfl
  | succ k ih =>
    have hne : a ∉ [bankAddr dst (run k).y] := by
      rw [List.mem_singleton]
      rintro rfl
      exact ha (bankOf_bankAddr ..)
    rw [hrun k, movedByte_memoryKept _ _ _ _ a hne, ih]

end

/-- Settles O54: the registers after `k` bytes by induction on `k`, and the last byte, at which C is zero, from
`movedByte`. -/
theorem blockMoveWhole : Obligations.BlockMoveWhole := by
  rintro s dst src form hform hwide run rfl hexec
  have hrun (k : Nat) : run (k + 1) = movedByte form.2 dst src (run k) :=
    (Host.Outcome.next.inj ((exec_blockMove (run k) dst src form hform).symm.trans (hexec k))).symm
  have hregs := blockMove_registers hrun hwide
  have hpc := blockMove_pc hrun hwide
  have hcount : BitVec.ofNat 16 ((run 0).c.toNat + 1) = (run 0).c + 1 := by bv_omega
  obtain ⟨-, hlast, -, -⟩ := hregs (run 0).c.toNat
  have hzero : (run (run 0).c.toNat).c = 0x0000 := by rw [hlast]; bv_omega
  obtain ⟨-, hc, hx, hy⟩ := hregs ((run 0).c.toNat + 1)
  refine ⟨fun k hk => ?_, ?_, ?_, ?_, ?_, fun a ha => blockMove_read_other_bank hrun ha _⟩
  · obtain ⟨-, hck, hxk, hyk⟩ := hregs k
    exact ⟨hpc k hk, by rw [hck]; bv_omega, hxk, hyk⟩
  · rw [hrun, movedByte_pc, if_pos hzero, hpc _ le_rfl]
  · rw [hc]
    bv_omega
  · rw [hx, hcount]
  · rw [hy, hcount]

end Sys2Proof.Machine
end

/-! ## ADC and SBC (O29 to O33) -/

section
namespace Sys2Proof.Machine

/-! ### The state afterwards -/

/-- The state after ADC or SBC with the result `r`: C, P and PC alone are written. -/
def computed (w : Width) (r : ArithResult) (o : Operand) (s : State) : State :=
  { s with
    c := mergeAcc w s.c r.value
    p := arithFlags w r s.p
    pc := s.pc + BitVec.ofNat 16 (o.length w) }

theorem exec_adc {v a : Word} {o : Byte} {l : Addr} {form : Instr × Operand} (h : form ∈ adcForms v o a l) (s : State) :
    exec form.1 s = .next
      (computed (wm s) (adcResult s.params (wm s) (accAt (wm s) s) (form.2.value (wm s) s) s.p) form.2 s) :=
  (exec_adcForms v o a l s form h).trans (readInstr_next ..)

theorem exec_sbc {v a : Word} {o : Byte} {l : Addr} {form : Instr × Operand} (h : form ∈ sbcForms v o a l) (s : State) :
    exec form.1 s = .next
      (computed (wm s) (sbcResult s.params (wm s) (accAt (wm s) s) (form.2.value (wm s) s) s.p) form.2 s) :=
  (exec_sbcForms v o a l s form h).trans (readInstr_next ..)

section
variable (w : Width) (r : ArithResult) (o : Operand) (s : State)

theorem accAt_computed : accAt w (computed w r o s) = truncTo w r.value := truncTo_mergeAcc w s.c r.value

theorem highByte_computed (h : w = .w8) : highByte (computed w r o s).c = highByte s.c := by
  rw [computed, h, highByte_mergeAcc]

theorem msbAt_computed : msbAt w (computed w r o s).c = msbAt w r.value := by
  rw [← msbAt_truncTo, ← msbAt_truncTo w r.value]
  exact congrArg (msbAt w) (accAt_computed w r o s)

theorem computed_c : getFlag (computed w r o s).p .c = r.carry := getFlag_arithFlags w r s.p .c

theorem computed_v : getFlag (computed w r o s).p .v = r.overflow := getFlag_arithFlags w r s.p .v

theorem nzOf_computed : nzOf w (accAt w (computed w r o s)) (computed w r o s).p := by
  rw [accAt_computed]
  exact nzOf_truncTo_setNZ w r.value _

theorem computed_flagsKept : flagsKept [.m, .x, .d, .i] s.p (computed w r o s).p := by
  intro f hf
  simp only [List.mem_cons, List.not_mem_nil, or_false] at hf
  rcases hf with rfl | rfl | rfl | rfl <;> exact getFlag_arithFlags w r s.p _

end

/-! ### Binary arithmetic as numbers -/

/-- The top bit of a value that is held at a width. -/
theorem msbAt_iff_of_lt {w : Width} {v : Word} (h : v.toNat < 2 ^ widthBits w) :
    msbAt w v = true ↔ 2 ^ (widthBits w - 1) ≤ v.toNat := by
  rw [msbAt_iff, Nat.mod_eq_of_lt h]

/-- A value that is held at a width, seen as a signed number: its top bit tells whether 2^w is taken off. -/
theorem signedAt_cases {w : Width} {v : Word} (h : v.toNat < 2 ^ widthBits w) :
    (msbAt w v = false ∧ v.toNat < 2 ^ (widthBits w - 1) ∧ signedAt w v = v.toNat) ∨
      (msbAt w v = true ∧ 2 ^ (widthBits w - 1) ≤ v.toNat ∧ signedAt w v = v.toNat - (2 ^ widthBits w : Int)) := by
  have hsigned : signedAt w v = if 2 * v.toNat < 2 ^ widthBits w then (v.toNat : Int)
      else v.toNat - (2 ^ widthBits w : Nat) := by
    cases w with
    | w8 =>
      have hlow : (lowByte v).toNat = v.toNat := by
        simp only [widthBits] at h
        rw [toNat_lowByte]
        omega
      rw [signedAt, BitVec.toInt_eq_toNat_cond, hlow, widthBits]
    | w16 => rw [signedAt, BitVec.toInt_eq_toNat_cond, widthBits]
  have hmsb := msbAt_iff_of_lt h
  rw [hsigned]
  cases hv : msbAt w v with
  | false =>
    have hlt : v.toNat < 2 ^ (widthBits w - 1) := by simpa [hv] using hmsb
    refine .inl ⟨rfl, hlt, if_pos ?_⟩
    cases w <;> simp only [widthBits] at hlt ⊢ <;> omega
  | true =>
    have hle := hmsb.mp hv
    refine .inr ⟨rfl, hle, (if_neg ?_).trans ?_⟩
    · cases w <;> simp only [widthBits] at hle ⊢ <;> omega
    · rw [Nat.cast_pow, Nat.cast_ofNat]

theorem outOfRange_iff (w : Width) (v : Int) :
    outOfRange w v = true ↔
      ¬(-(2 ^ (widthBits w - 1) : Int) ≤ v ∧ v ≤ (2 ^ (widthBits w - 1) : Int) - 1) := by
  rw [outOfRange, Bool.or_eq_true, decide_eq_true_iff, decide_eq_true_iff]
  omega

theorem toNat_binaryAdd_value (w : Width) (a b : Word) (cin : Bool) :
    (binaryAdd w a b cin).value.toNat = (a.toNat + b.toNat + bitNat cin) % 2 ^ widthBits w := by
  have hmod : (a.toNat + b.toNat + bitNat cin) % 2 ^ widthBits w < 2 ^ 16 :=
    (Nat.mod_lt _ (Nat.two_pow_pos _)).trans_le (by cases w <;> decide)
  rw [binaryAdd, BitVec.toNat_ofNat, Nat.mod_eq_of_lt hmod]

/-- The signed sum leaves the signed range when operands of one sign have a sum of the other (R150). -/
theorem binaryAdd_overflow_iff {w : Width} {a b : Word} (ha : a.toNat < 2 ^ widthBits w) (hb : b.toNat < 2 ^ widthBits w)
    (cin : Bool) :
    (binaryAdd w a b cin).overflow = true ↔
      msbAt w a = msbAt w b ∧ msbAt w (binaryAdd w a b cin).value ≠ msbAt w a := by
  have hcin := bitNat_lt_two cin
  have hsum := toNat_binaryAdd_value w a b cin
  have hsumlt : (binaryAdd w a b cin).value.toNat < 2 ^ widthBits w := hsum ▸ Nat.mod_lt _ (Nat.two_pow_pos _)
  have hdef : (binaryAdd w a b cin).overflow = outOfRange w (signedAt w a + signedAt w b + bitNat cin) := rfl
  rw [hdef, outOfRange_iff]
  obtain ⟨hma, hna, hsa⟩ | ⟨hma, hna, hsa⟩ := signedAt_cases ha <;>
  obtain ⟨hmb, hnb, hsb⟩ | ⟨hmb, hnb, hsb⟩ := signedAt_cases hb <;>
  obtain ⟨hms, hns, -⟩ | ⟨hms, hns, -⟩ := signedAt_cases hsumlt <;>
  · rw [hma, hmb, hms, hsa, hsb]
    rw [hsum] at hns
    cases w <;> simp only [widthBits] at * <;> simp <;> omega

/-- The one's complement at a width, as a number. -/
theorem toNat_truncTo_not {w : Width} {b : Word} (hb : b.toNat < 2 ^ widthBits w) :
    (truncTo w (~~~b)).toNat = 2 ^ widthBits w - 1 - b.toNat := by
  rw [toNat_truncTo, BitVec.toNat_not]
  cases w <;> simp only [widthBits] at hb ⊢ <;> omega

theorem signedAt_truncTo_not {w : Width} {b : Word} (hb : b.toNat < 2 ^ widthBits w) :
    signedAt w (truncTo w (~~~b)) = -signedAt w b - 1 := by
  have hflip := toNat_truncTo_not hb
  have hfliplt : (truncTo w (~~~b)).toNat < 2 ^ widthBits w := toNat_lt_of_truncTo_eq (truncTo_truncTo ..)
  obtain ⟨-, hnb, hsb⟩ | ⟨-, hnb, hsb⟩ := signedAt_cases hb <;>
  obtain ⟨-, hnf, hsf⟩ | ⟨-, hnf, hsf⟩ := signedAt_cases hfliplt <;>
  · rw [hsb, hsf]
    cases w <;> simp only [widthBits] at * <;> omega

theorem msbAt_truncTo_not {w : Width} {b : Word} (hb : b.toNat < 2 ^ widthBits w) :
    msbAt w (truncTo w (~~~b)) = !msbAt w b := by
  rw [msbAt_truncTo, msbAt, BitVec.getLsbD_not, ← msbAt]
  cases w <;> rfl

/-- SBC is ADC of the one's complement (R151). -/
theorem binarySub_eq {w : Width} (a : Word) {b : Word} (hb : b.toNat < 2 ^ widthBits w) (cin : Bool) :
    binarySub w a b cin = binaryAdd w a (truncTo w (~~~b)) cin := by
  have hflip := toNat_truncTo_not hb
  have hborrow : (bitNat (!cin) : Int) = 1 - bitNat cin := by cases cin <;> rfl
  have hpow : ((2 ^ widthBits w : Nat) : Int) = 2 ^ widthBits w := by cases w <;> rfl
  have hdiff : (a.toNat : Int) - b.toNat - bitNat (!cin) =
      (a.toNat + (truncTo w (~~~b)).toNat + bitNat cin : Nat) - (2 ^ widthBits w : Nat) := by
    rw [hflip, hborrow]
    omega
  unfold binarySub binaryAdd
  rw [ArithResult.mk.injEq]
  refine ⟨?hvalue, ?hcarry, ?hoverflow⟩
  case hvalue =>
    rw [hdiff, ← hpow, Int.sub_emod_right, ← Int.natCast_emod, BitVec.ofInt_natCast]
  case hcarry =>
    rw [hdiff]
    exact decide_eq_decide.mpr (by omega)
  case hoverflow =>
    have hsum : signedAt w a - signedAt w b - (1 - bitNat cin) = signedAt w a + (-signedAt w b - 1) + bitNat cin := by
      omega
    rw [subOverflow, addOverflow, signedAt_truncTo_not hb, hborrow, hsum]

/-! SBC as numbers: what is taken off is the operand and the borrow. -/

section
variable {w : Width} (a : Word) {b : Word} (hb : b.toNat < 2 ^ widthBits w) (cin : Bool)
include hb

theorem toNat_binarySub_value :
    (binarySub w a b cin).value.toNat =
      (a.toNat + 2 ^ widthBits w - (b.toNat + bitNat (!cin))) % 2 ^ widthBits w := by
  have hborrow : bitNat (!cin) = 1 - bitNat cin := by cases cin <;> rfl
  have hcin := bitNat_lt_two cin
  rw [binarySub_eq a hb, toNat_binaryAdd_value, toNat_truncTo_not hb]
  congr 1
  omega

omit hb in
theorem binarySub_carry_iff : (binarySub w a b cin).carry = true ↔ b.toNat + bitNat (!cin) ≤ a.toNat := by
  rw [binarySub, decide_eq_true_iff]
  omega

/-- The signed difference leaves the signed range when operands of two signs have a difference of the second one's. -/
theorem binarySub_overflow_iff (ha : a.toNat < 2 ^ widthBits w) :
    (binarySub w a b cin).overflow = true ↔
      msbAt w a ≠ msbAt w b ∧ msbAt w (binarySub w a b cin).value ≠ msbAt w a := by
  have hfliplt : (truncTo w (~~~b)).toNat < 2 ^ widthBits w := toNat_lt_of_truncTo_eq (truncTo_truncTo ..)
  rw [binarySub_eq a hb, binaryAdd_overflow_iff ha hfliplt, msbAt_truncTo_not hb, Bool.eq_not]

end

/-- Settles O31: `binarySub_eq`, `outOfRange_iff` and `binaryAdd_overflow_iff`. -/
theorem overflowAndComplement : Obligations.OverflowAndComplement := by
  intro w a b cin ha hb flipped
  have ha' := toNat_lt_of_truncTo_eq ha
  have hb' := toNat_lt_of_truncTo_eq hb
  exact ⟨binarySub_eq a hb' cin, outOfRange_iff .., binaryAdd_overflow_iff ha' hb' cin⟩

/-! ### ADC and SBC in binary mode -/

theorem adcResult_binary {p : Byte} (h : getFlag p .d = false) (params : Config.Parameters) (w : Width) (a b : Word) :
    adcResult params w a b p = binaryAdd w a b (getFlag p .c) :=
  if_neg (by simp [h])

theorem sbcResult_binary {p : Byte} (h : getFlag p .d = false) (params : Config.Parameters) (w : Width) (a b : Word) :
    sbcResult params w a b p = binarySub w a b (getFlag p .c) :=
  if_neg (by simp [h])

/-- Settles O29: the state is `computed` with the result of `binaryAdd`. -/
theorem adcBinary : Obligations.AdcBinary := by
  intro s v a o l form hform hd w old b sum
  have hold : old.toNat < 2 ^ widthBits w := toNat_lt_of_truncTo_eq (truncTo_truncTo w s.c)
  have hb : b.toNat < 2 ^ widthBits w := toNat_lt_of_truncTo_eq (truncTo_value form.2 w s)
  have hexec := exec_adc hform s
  rw [adcResult_binary hd] at hexec
  refine ⟨_, hexec, rfl, ?value, highByte_computed _ _ _ s, ?carry, ?overflow, nzOf_computed .., computed_flagsKept _ _ _ s⟩
  case value => rw [accAt_computed, toNat_truncTo, toNat_binaryAdd_value, Nat.mod_mod]
  case carry => rw [computed_c, binaryAdd, decide_eq_true_iff]
  case overflow => rw [computed_v, msbAt_computed, binaryAdd_overflow_iff hold hb]

/-- Settles O30: the state is `computed` with the result of `binarySub`, the same three facts of a difference. -/
theorem sbcBinary : Obligations.SbcBinary := by
  intro s v a o l form hform hd w old b taken
  have hold : old.toNat < 2 ^ widthBits w := toNat_lt_of_truncTo_eq (truncTo_truncTo w s.c)
  have hb : b.toNat < 2 ^ widthBits w := toNat_lt_of_truncTo_eq (truncTo_value form.2 w s)
  have hexec := exec_sbc hform s
  rw [sbcResult_binary hd] at hexec
  refine ⟨_, hexec, rfl, ?value, highByte_computed _ _ _ s, ?carry, ?overflow, nzOf_computed .., computed_flagsKept _ _ _ s⟩
  case value => rw [accAt_computed, toNat_truncTo, toNat_binarySub_value _ hb, Nat.mod_mod]
  case carry => rw [computed_c, binarySub_carry_iff]
  case overflow => rw [computed_v, msbAt_computed, binarySub_overflow_iff _ hb _ hold]

end Sys2Proof.Machine
end

/-! ## Decimal ADC and SBC (O32, O33) -/

section
namespace Sys2Proof.Machine

/-! ### A number in decimal digits, its lowest digit first -/

theorem bcdValue_digit_add {d : Nat} (h : d ≤ 9) (n r : Nat) :
    bcdValue (n + 1) (d + 16 * r) = d + 10 * bcdValue n r := by
  have hdigit : (d + 16 * r) % 16 = d := by omega
  have hrest : (d + 16 * r) / 16 = r := by omega
  rw [bcdValue, hdigit, hrest]

theorem validBcdDigits_digit_add {d : Nat} (h : d ≤ 9) (n r : Nat) :
    validBcdDigits (n + 1) (d + 16 * r) = validBcdDigits n r := by
  have hdigit : (d + 16 * r) % 16 = d := by omega
  have hrest : (d + 16 * r) / 16 = r := by omega
  rw [validBcdDigits, hdigit, hrest, decide_eq_true h, Bool.true_and]

theorem validBcdDigits_succ {n a : Nat} :
    validBcdDigits (n + 1) a = true ↔ a % 16 ≤ 9 ∧ validBcdDigits n (a / 16) = true := by
  rw [validBcdDigits, Bool.and_eq_true, decide_eq_true_iff]

/-- The result of a decimal loop over `n` digits: a valid number of `n` digits, and a carry or borrow. -/
def IsDecimalResult (n : Nat) (r : Nat × Nat) : Prop :=
  validBcdDigits n r.1 = true ∧ r.1 < 16 ^ n ∧ r.2 ≤ 1

theorem IsDecimalResult.cons {n d : Nat} {r : Nat × Nat} (h : IsDecimalResult n r) (hd : d ≤ 9) :
    IsDecimalResult (n + 1) (d + 16 * r.1, r.2) := by
  obtain ⟨hvalid, hlt, hcarry⟩ := h
  refine ⟨(validBcdDigits_digit_add hd n r.1).trans hvalid, ?_, hcarry⟩
  rw [Nat.pow_succ]
  omega

/-- A digit sum is corrected by 6 when it passes 9 (R152). -/
theorem decimalAddDigits_digit {x y carry s : Nat} (hx : x ≤ 9) (hy : y ≤ 9) (hc : carry ≤ 1)
    (hs : s = if 9 < x + y + carry then x + y + carry + 6 else x + y + carry) :
    s % 16 ≤ 9 ∧ s % 16 + 10 * (if 15 < s then 1 else 0) = x + y + carry := by
  split at hs <;> split <;> omega

theorem decimalAddDigits_succ (n a b carry : Nat) :
    ∃ s, (s = if 9 < a % 16 + b % 16 + carry then a % 16 + b % 16 + carry + 6 else a % 16 + b % 16 + carry) ∧
      decimalAddDigits (n + 1) a b carry =
        (s % 16 + 16 * (decimalAddDigits n (a / 16) (b / 16) (if 15 < s then 1 else 0)).1,
          (decimalAddDigits n (a / 16) (b / 16) (if 15 < s then 1 else 0)).2) :=
  ⟨_, rfl, rfl⟩

/-- The loop of DecimalAdd on valid operands is decimal addition with carry (R152). -/
theorem decimalAddDigits_spec (n : Nat) : ∀ (a b carry : Nat), validBcdDigits n a = true → validBcdDigits n b = true →
    carry ≤ 1 →
    IsDecimalResult n (decimalAddDigits n a b carry) ∧
      bcdValue n (decimalAddDigits n a b carry).1 + 10 ^ n * (decimalAddDigits n a b carry).2 =
        bcdValue n a + bcdValue n b + carry := by
  induction n with
  | zero =>
    intro a b carry _ _ hc
    exact ⟨⟨rfl, Nat.one_pos, hc⟩, by simp [decimalAddDigits, bcdValue]⟩
  | succ n ih =>
    intro a b carry ha hb hc
    obtain ⟨hda, hra⟩ := validBcdDigits_succ.mp ha
    obtain ⟨hdb, hrb⟩ := validBcdDigits_succ.mp hb
    obtain ⟨s, hs, hloop⟩ := decimalAddDigits_succ n a b carry
    obtain ⟨hdigit, hsum⟩ := decimalAddDigits_digit hda hdb hc hs
    have hcarry : (if 15 < s then 1 else 0) ≤ 1 := by split <;> omega
    obtain ⟨hres, hval⟩ := ih (a / 16) (b / 16) _ hra hrb hcarry
    rw [hloop]
    refine ⟨hres.cons hdigit, ?_⟩
    have hpow (k : Nat) : 10 ^ (n + 1) * k = 10 * (10 ^ n * k) := by rw [Nat.pow_succ, Nat.mul_right_comm, Nat.mul_comm]
    rw [bcdValue_digit_add hdigit, bcdValue, bcdValue, hpow]
    dsimp only
    omega

/-- A negative digit difference borrows ten from the next digit (R152). -/
theorem decimalSubDigits_digit {x y borrow : Nat} {s t : Int} (hx : x ≤ 9) (hy : y ≤ 9) (hb : borrow ≤ 1)
    (hs : s = (x : Int) - y - borrow) (ht : t = if s < 0 then s + 10 else s) :
    (t % 16).toNat ≤ 9 ∧ (t % 16).toNat + y + borrow = x + 10 * (if s < 0 then 1 else 0) := by
  split at ht <;> split <;> omega

theorem decimalSubDigits_succ (n a b borrow : Nat) :
    ∃ s t : Int, s = ((a % 16 : Nat) : Int) - (b % 16 : Nat) - borrow ∧ (t = if s < 0 then s + 10 else s) ∧
      decimalSubDigits (n + 1) a b borrow =
        ((t % 16).toNat + 16 * (decimalSubDigits n (a / 16) (b / 16) (if s < 0 then 1 else 0)).1,
          (decimalSubDigits n (a / 16) (b / 16) (if s < 0 then 1 else 0)).2) :=
  ⟨_, _, rfl, rfl, rfl⟩

/-- The loop of DecimalSub on valid operands is decimal subtraction with borrow (R152). -/
theorem decimalSubDigits_spec (n : Nat) : ∀ (a b borrow : Nat), validBcdDigits n a = true → validBcdDigits n b = true →
    borrow ≤ 1 →
    IsDecimalResult n (decimalSubDigits n a b borrow) ∧
      bcdValue n (decimalSubDigits n a b borrow).1 + bcdValue n b + borrow =
        bcdValue n a + 10 ^ n * (decimalSubDigits n a b borrow).2 := by
  induction n with
  | zero =>
    intro a b borrow _ _ hc
    exact ⟨⟨rfl, Nat.one_pos, hc⟩, by simp [decimalSubDigits, bcdValue]⟩
  | succ n ih =>
    intro a b borrow ha hb hc
    obtain ⟨hda, hra⟩ := validBcdDigits_succ.mp ha
    obtain ⟨hdb, hrb⟩ := validBcdDigits_succ.mp hb
    obtain ⟨s, t, hs, ht, hloop⟩ := decimalSubDigits_succ n a b borrow
    obtain ⟨hdigit, hdiff⟩ := decimalSubDigits_digit hda hdb hc hs ht
    have hborrow : (if s < 0 then 1 else 0) ≤ 1 := by split <;> omega
    obtain ⟨hres, hval⟩ := ih (a / 16) (b / 16) _ hra hrb hborrow
    rw [hloop]
    refine ⟨hres.cons hdigit, ?_⟩
    have hpow (k : Nat) : 10 ^ (n + 1) * k = 10 * (10 ^ n * k) := by rw [Nat.pow_succ, Nat.mul_right_comm, Nat.mul_comm]
    rw [bcdValue_digit_add hdigit, bcdValue, bcdValue, hpow]
    dsimp only
    omega

/-! ### The instructions -/

/-- On valid operands DEC_INVALID plays no part (log 7). -/
theorem decimalResult_of_valid {w : Width} {a b : Word} (ha : validBcd w a = true) (hb : validBcd w b = true)
    (params : Config.Parameters) (sub cin : Bool) (value : Word) (carry : Bool) :
    decimalResult params sub w a b cin value carry = (value, carry) := by
  rw [decimalResult, ha, hb]
  rfl

/-- A decimal result fits in the accumulator at its width. -/
theorem IsDecimalResult.toNat_truncTo {w : Width} {r : Nat × Nat} (h : IsDecimalResult (2 * widthBytes w) r) :
    (truncTo w (BitVec.ofNat 16 r.1)).toNat = r.1 := by
  obtain ⟨-, hlt, -⟩ := h
  rw [Machine.toNat_truncTo, BitVec.toNat_ofNat]
  cases w <;> simp only [widthBytes, widthBits] at hlt ⊢ <;> omega

theorem bitNat_beq_one {n : Nat} (h : n ≤ 1) : bitNat (n == 1) = n := by
  interval_cases n <;> rfl

theorem bitNat_not_beq_zero {n : Nat} (h : n ≤ 1) : bitNat (!(n == 0)) = n := by
  interval_cases n <;> rfl

/-- ADC in decimal mode on valid operands (R150, R152). -/
theorem decimalAdd_of_valid {w : Width} {a b : Word} (ha : validBcd w a = true) (hb : validBcd w b = true)
    (params : Config.Parameters) (cin : Bool) :
    validBcd w (truncTo w (decimalAdd params w a b cin).value) = true ∧
      bcdValue (2 * widthBytes w) (truncTo w (decimalAdd params w a b cin).value).toNat +
          10 ^ (2 * widthBytes w) * bitNat (decimalAdd params w a b cin).carry =
        bcdValue (2 * widthBytes w) a.toNat + bcdValue (2 * widthBytes w) b.toNat + bitNat cin := by
  obtain ⟨hres, hval⟩ :=
    decimalAddDigits_spec _ a.toNat b.toNat (bitNat cin) ha hb (Nat.le_of_lt_succ (bitNat_lt_two cin))
  rw [decimalAdd, decimalResult_of_valid ha hb, validBcd, hres.toNat_truncTo, bitNat_beq_one hres.2.2]
  exact ⟨hres.1, hval⟩

/-- SBC in decimal mode on valid operands (R151, R152). -/
theorem decimalSub_of_valid {w : Width} {a b : Word} (ha : validBcd w a = true) (hb : validBcd w b = true)
    (params : Config.Parameters) (cin : Bool) :
    validBcd w (truncTo w (decimalSub params w a b cin).value) = true ∧
      bcdValue (2 * widthBytes w) (truncTo w (decimalSub params w a b cin).value).toNat +
          bcdValue (2 * widthBytes w) b.toNat + bitNat (!cin) =
        bcdValue (2 * widthBytes w) a.toNat +
          10 ^ (2 * widthBytes w) * bitNat (!(decimalSub params w a b cin).carry) := by
  obtain ⟨hres, hval⟩ :=
    decimalSubDigits_spec _ a.toNat b.toNat (bitNat (!cin)) ha hb (Nat.le_of_lt_succ (bitNat_lt_two _))
  rw [decimalSub, decimalResult_of_valid ha hb, validBcd, hres.toNat_truncTo, bitNat_not_beq_zero hres.2.2]
  exact ⟨hres.1, hval⟩

/-- Settles O32: the state is `computed` with the result of `decimalAdd`. -/
theorem adcDecimal : Obligations.AdcDecimal := by
  intro s v a o l form hform hd w digits old b
  have hexec := exec_adc hform s
  rw [adcResult, if_pos hd] at hexec
  refine ⟨_, hexec, rfl, highByte_computed _ _ _ s, nzOf_computed .., computed_flagsKept _ _ _ s, fun hold hb => ?_⟩
  rw [accAt_computed, computed_c]
  exact decimalAdd_of_valid hold hb s.params (getFlag s.p .c)

/-- Settles O33: the state is `computed` with the result of `decimalSub`. -/
theorem sbcDecimal : Obligations.SbcDecimal := by
  intro s v a o l form hform hd w digits old b
  have hexec := exec_sbc hform s
  rw [sbcResult, if_pos hd] at hexec
  refine ⟨_, hexec, rfl, highByte_computed _ _ _ s, nzOf_computed .., computed_flagsKept _ _ _ s, fun hold hb => ?_⟩
  rw [accAt_computed, computed_c]
  exact decimalSub_of_valid hold hb s.params (getFlag s.p .c)

end Sys2Proof.Machine
end

/-! ## What every instruction keeps (O9, O11 to O13) -/

section
namespace Sys2Proof.Machine

/-! ### Ordinary instructions

235 of the 256 instructions leave alone all the state that the invariants and the writer rules speak of, but for C, X
and Y at their width and the stack pointer inside page 1. -/

/-- What an ordinary instruction does at most: it writes C (B only with m = 0), X and Y at their width, S (inside page 1
in emulation mode), memory, PC and the flags other than m and x. -/
structure OrdinaryFrame (s t : State) : Prop where
  e : t.e = s.e
  sp : s.e = true → highByte s.sp = 0x01 → highByte t.sp = 0x01
  d : t.d = s.d
  dbr : t.dbr = s.dbr
  pbr : t.pbr = s.pbr
  run : t.run = s.run
  inputs : t.inputs = s.inputs
  params : t.params = s.params
  flagM : getFlag t.p .m = getFlag s.p .m
  flagX : getFlag t.p .x = getFlag s.p .x
  hiddenB : getFlag s.p .m = true → highByte t.c = highByte s.c
  indexX : t.x = s.x ∨ ∃ v, t.x = truncTo (wx s) v
  indexY : t.y = s.y ∨ ∃ v, t.y = truncTo (wx s) v
  mem : Memory.wf s.mem = true → Memory.wf t.mem = true

theorem wm_of_flagM {s : State} (h : getFlag s.p .m = true) : wm s = .w8 := if_pos h

theorem wx_of_flagX {s : State} (h : getFlag s.p .x = true) : wx s = .w8 := if_pos h

/-- B is kept by a write to the accumulator at its width (R11, R30). -/
theorem highByte_mergeAcc_wm {s : State} (h : getFlag s.p .m = true) (v : Word) :
    highByte (mergeAcc (wm s) s.c v) = highByte s.c := by
  rw [wm_of_flagM h, highByte_mergeAcc]

/-- An operation on the accumulator: C at its width, and flags other than m and x. -/
theorem ordinaryFrame_of_acc {s : State} {v : Word} {p : Byte} (hm : getFlag p .m = getFlag s.p .m)
    (hx : getFlag p .x = getFlag s.p .x) : OrdinaryFrame s { s with c := mergeAcc (wm s) s.c v, p := p } :=
  ⟨rfl, fun _ => id, rfl, rfl, rfl, rfl, rfl, rfl, hm, hx, fun h => highByte_mergeAcc_wm h v, .inl rfl, .inl rfl, id⟩

/-- An operation on flags other than m and x. -/
theorem ordinaryFrame_of_p {s : State} {p : Byte} (hm : getFlag p .m = getFlag s.p .m)
    (hx : getFlag p .x = getFlag s.p .x) : OrdinaryFrame s { s with p := p } :=
  ⟨rfl, fun _ => id, rfl, rfl, rfl, rfl, rfl, rfl, hm, hx, fun _ => rfl, .inl rfl, .inl rfl, id⟩

/-- An operation on X and flags other than m and x. -/
theorem ordinaryFrame_of_x {s : State} {v : Word} {p : Byte} (hm : getFlag p .m = getFlag s.p .m)
    (hx : getFlag p .x = getFlag s.p .x) : OrdinaryFrame s { s with x := truncTo (wx s) v, p := p } :=
  ⟨rfl, fun _ => id, rfl, rfl, rfl, rfl, rfl, rfl, hm, hx, fun _ => rfl, .inr ⟨v, rfl⟩, .inl rfl, id⟩

/-- An operation on Y and flags other than m and x. -/
theorem ordinaryFrame_of_y {s : State} {v : Word} {p : Byte} (hm : getFlag p .m = getFlag s.p .m)
    (hx : getFlag p .x = getFlag s.p .x) : OrdinaryFrame s { s with y := truncTo (wx s) v, p := p } :=
  ⟨rfl, fun _ => id, rfl, rfl, rfl, rfl, rfl, rfl, hm, hx, fun _ => rfl, .inl rfl, .inr ⟨v, rfl⟩, id⟩

/-- A write to memory, and flags other than m and x. -/
theorem ordinaryFrame_of_mem {s : State} {mem : Memory} {p : Byte} (hm : getFlag p .m = getFlag s.p .m)
    (hx : getFlag p .x = getFlag s.p .x) (hmem : Memory.wf s.mem = true → Memory.wf mem = true) :
    OrdinaryFrame s { s with mem := mem, p := p } :=
  ⟨rfl, fun _ => id, rfl, rfl, rfl, rfl, rfl, rfl, hm, hx, fun _ => rfl, .inl rfl, .inl rfl, hmem⟩

/-- The frame says nothing of PC. -/
theorem OrdinaryFrame.setPc {s t : State} (h : OrdinaryFrame s t) (pc : Word) : OrdinaryFrame s { t with pc := pc } :=
  ⟨h.e, h.sp, h.d, h.dbr, h.pbr, h.run, h.inputs, h.params, h.flagM, h.flagX, h.hiddenB, h.indexX, h.indexY, h.mem⟩

theorem getFlag_setNZ_of_mode {f : Flag} (hf : f = .m ∨ f = .x) (w : Width) (v : Word) (p : Byte) :
    getFlag (setNZ w v p) f = getFlag p f := by
  rcases hf with rfl | rfl <;> simp [getFlag_setNZ]

/-- The operation of every read has the frame. -/
theorem ReadOp.ordinaryFrame (op : ReadOp) (v : Word) (s : State) :
    OrdinaryFrame s (op.function (op.width s) v s) := by
  have hnz (w : Width) (u : Word) (f : Flag) (hf : f = .m ∨ f = .x) := getFlag_setNZ_of_mode hf w u s.p
  cases op with
  | adc => exact ordinaryFrame_of_acc (getFlag_arithFlags _ _ s.p .m) (getFlag_arithFlags _ _ s.p .x)
  | sbc => exact ordinaryFrame_of_acc (getFlag_arithFlags _ _ s.p .m) (getFlag_arithFlags _ _ s.p .x)
  | cmp => exact ordinaryFrame_of_p (getFlag_compareFlags _ _ _ s.p .m) (getFlag_compareFlags _ _ _ s.p .x)
  | cpx => exact ordinaryFrame_of_p (getFlag_compareFlags _ _ _ s.p .m) (getFlag_compareFlags _ _ _ s.p .x)
  | cpy => exact ordinaryFrame_of_p (getFlag_compareFlags _ _ _ s.p .m) (getFlag_compareFlags _ _ _ s.p .x)
  | and => exact ordinaryFrame_of_acc (hnz _ _ .m (.inl rfl)) (hnz _ _ .x (.inr rfl))
  | eor => exact ordinaryFrame_of_acc (hnz _ _ .m (.inl rfl)) (hnz _ _ .x (.inr rfl))
  | ora => exact ordinaryFrame_of_acc (hnz _ _ .m (.inl rfl)) (hnz _ _ .x (.inr rfl))
  | lda => exact ordinaryFrame_of_acc (hnz _ _ .m (.inl rfl)) (hnz _ _ .x (.inr rfl))
  | bit => exact ordinaryFrame_of_p (getFlag_bitMemoryFlags _ _ _ s.p .m) (getFlag_bitMemoryFlags _ _ _ s.p .x)
  | bitImm => exact ordinaryFrame_of_p (getFlag_bitImmediateFlags _ _ _ s.p .m) (getFlag_bitImmediateFlags _ _ _ s.p .x)
  | ldx => exact ordinaryFrame_of_x (hnz _ _ .m (.inl rfl)) (hnz _ _ .x (.inr rfl))
  | ldy => exact ordinaryFrame_of_y (hnz _ _ .m (.inl rfl)) (hnz _ _ .x (.inr rfl))

/-- A push or a jump: memory, S and PC. -/
theorem ordinaryFrame_of_stack {s : State} {mem : Memory} {sp pc : Word}
    (hmem : Memory.wf s.mem = true → Memory.wf mem = true)
    (hsp : s.e = true → highByte s.sp = 0x01 → highByte sp = 0x01) :
    OrdinaryFrame s { s with mem := mem, sp := sp, pc := pc } :=
  ⟨rfl, hsp, rfl, rfl, rfl, rfl, rfl, rfl, rfl, rfl, fun _ => rfl, .inl rfl, .inl rfl, hmem⟩

/-- The frame says of S only that it stays in page 1, which every pull does. -/
theorem OrdinaryFrame.setPulledPointer {s t : State} (h : OrdinaryFrame s t) (w : Width) :
    OrdinaryFrame s { t with sp := pulledPointer w s } := by
  have hsp (he : s.e = true) : highByte (pulledPointer w s) = 0x01 := by
    cases w <;> rw [pulledPointer, he] <;> exact highByte_pullPointer _
  exact ⟨h.e, fun he _ => hsp he, h.d, h.dbr, h.pbr, h.run, h.inputs, h.params, h.flagM, h.flagX, h.hiddenB, h.indexX,
    h.indexY, h.mem⟩

/-- The 193 instructions of a shared shape are ordinary. -/
theorem ordinaryFrame_of_shape {i : Instr} {s t : State} (hshape : shapeOf i ≠ .own) (h : exec i s = .next t) :
    OrdinaryFrame s t := by
  rw [exec_shape] at h
  cases hi : shapeOf i with
  | read op o =>
    rw [hi] at h
    obtain rfl := Host.Outcome.next.inj h
    exact (op.ordinaryFrame _ s).setPc _
  | store op mode =>
    rw [hi] at h
    obtain rfl := Host.Outcome.next.inj ((storeInstr_next ..).symm.trans h)
    exact (ordinaryFrame_of_mem rfl rfl (writeData_wf _ _ _ s)).setPc _
  | modify op mode =>
    rw [hi] at h
    obtain rfl := Host.Outcome.next.inj ((modifyMemory_next ..).symm.trans h)
    have hkept := op.keepsModes s (wm s) s.p (readData (mode.ea s) (wm s) s)
    exact (ordinaryFrame_of_mem (hkept .m (.inl rfl)) (hkept .x (.inr (.inl rfl))) (writeBack_wf _ _ _ s)).setPc _
  | modifyAcc op =>
    rw [hi] at h
    obtain rfl := Host.Outcome.next.inj ((modifyAccumulator_next ..).symm.trans h)
    have hkept := (ModifyOp.number op).keepsModes s (wm s) s.p (accAt (wm s) s)
    exact (ordinaryFrame_of_acc (hkept .m (.inl rfl)) (hkept .x (.inr (.inl rfl)))).setPc _
  | branch cond r =>
    rw [hi] at h
    obtain rfl := Host.Outcome.next.inj h
    exact (ordinaryFrame_of_p rfl rfl).setPc _
  | own => exact absurd hi hshape

/-- The instructions that are not ordinary: those that write e, m or x, D, DBR, PBR, the run state, or B with m = 1. -/
def isExceptional : Instr → Bool
  | .brk _ | .cop _ | .jsl _ | .plp | .pld | .tsc | .rti | .mvp _ _ | .mvn _ _ | .tcd | .jmlLong _ | .rtl | .tdc | .plb
  | .rep _ | .wai | .stp | .jmlAbsLong _ | .sep _ | .xba | .xce => true
  | _ => false

theorem ordinaryFrame_of_writeFlag {f : Flag} (hm : Flag.m ≠ f) (hx : Flag.x ≠ f) (b : Bool) (s : State) :
    OrdinaryFrame s (advance 1 (setFlagOf f b s)) :=
  (ordinaryFrame_of_p (getFlag_setFlag_of_ne s.p f .m b hm) (getFlag_setFlag_of_ne s.p f .x b hx)).setPc _

/-- A value written to X with its flags n and z: INX, DEX and the transfers to X. -/
theorem ordinaryFrame_of_indexX (v : Word) (s : State) :
    OrdinaryFrame s (advance 1 (setNZOf (wx s) (truncTo (wx s) v) (setX (wx s) (truncTo (wx s) v) s))) :=
  (ordinaryFrame_of_x (getFlag_setNZ_of_mode (.inl rfl) _ _ s.p) (getFlag_setNZ_of_mode (.inr rfl) _ _ s.p)).setPc _

/-- A value written to Y with its flags n and z: INY, DEY and the transfers to Y. -/
theorem ordinaryFrame_of_indexY (v : Word) (s : State) :
    OrdinaryFrame s (advance 1 (setNZOf (wx s) (truncTo (wx s) v) (setY (wx s) (truncTo (wx s) v) s))) :=
  (ordinaryFrame_of_y (getFlag_setNZ_of_mode (.inl rfl) _ _ s.p) (getFlag_setNZ_of_mode (.inr rfl) _ _ s.p)).setPc _

/-- A value written to the accumulator with its flags n and z: TXA and TYA. -/
theorem ordinaryFrame_of_transferToA (v : Word) (s : State) :
    OrdinaryFrame s (advance 1 (setNZOf (wm s) (truncTo (wm s) v) (setAcc (wm s) (truncTo (wm s) v) s))) :=
  (ordinaryFrame_of_acc (getFlag_setNZ_of_mode (.inl rfl) _ _ s.p) (getFlag_setNZ_of_mode (.inr rfl) _ _ s.p)).setPc _

/-- TCS and TXS keep S in page 1 in emulation mode (C36, log 28). -/
theorem ordinaryFrame_of_transferToS (v : Word) (s : State) :
    OrdinaryFrame s (advance 1 { s with sp := if s.e then joinBytes 0x01 (lowByte v) else v }) :=
  ordinaryFrame_of_stack id fun he _ => by rw [if_pos he, highByte_joinBytes]

theorem ordinaryFrame_of_push8 (v : Byte) (s : State) : OrdinaryFrame s (advance 1 (push8 v s)) :=
  ordinaryFrame_of_stack (push8_wf v s) fun he _ => by rw [push8_sp, he, highByte_pushPointer]

theorem ordinaryFrame_of_push16 (v pc : Word) (s : State) : OrdinaryFrame s { push16 v s with pc := pc } :=
  ordinaryFrame_of_stack (push16_wf v s) fun he _ => by rw [push16_sp, he, highByte_pushPointer]

theorem ordinaryFrame_of_pushAt (w : Width) (v : Word) (s : State) : OrdinaryFrame s (advance 1 (pushAt w v s)) := by
  cases w
  case w8 => exact ordinaryFrame_of_push8 (lowByte v) s
  case w16 => exact ordinaryFrame_of_push16 v _ s

theorem highByte_widePointer {s : State} (he : s.e = true) (n : Word) : highByte (widePointer s n) = 0x01 := by
  rw [widePointer, if_pos he, highByte_joinBytes]

/-- The pushes with the 16-bit stack pointer leave S in page 1 (R141). -/
theorem ordinaryFrame_of_pushEffective (v pc : Word) (s : State) :
    OrdinaryFrame s { s with mem := (push16n v s).mem, sp := widePointer s 2, pc := pc } :=
  ordinaryFrame_of_stack (push16n_wf v s) fun he _ => highByte_widePointer he 2

/-- Every instruction but the exceptional ones is ordinary. -/
theorem exec_ordinaryFrame {i : Instr} {s t : State} (hi : isExceptional i = false) (h : exec i s = .next t) :
    OrdinaryFrame s t := by
  have frame {u : State} (hexec : exec i s = .next u) (hu : OrdinaryFrame s u) : OrdinaryFrame s t :=
    Host.Outcome.next.inj (hexec.symm.trans h) ▸ hu
  have hnz (w : Width) (v : Word) (f : Flag) (hf : f = .m ∨ f = .x) := getFlag_setNZ_of_mode hf w v s.p
  cases i with
  | clc | sec | cli | sei | cld | sed | clv => exact frame rfl (ordinaryFrame_of_writeFlag (by decide) (by decide) _ s)
  | tax | tsx | tyx | inx | dex => exact frame rfl (ordinaryFrame_of_indexX _ s)
  | tay | txy | iny | dey => exact frame rfl (ordinaryFrame_of_indexY _ s)
  | txa | tya => exact frame rfl (ordinaryFrame_of_transferToA _ s)
  | tcs | txs => exact frame rfl (ordinaryFrame_of_transferToS _ s)
  | nop | wdm | jmpAbs | jmpAbsInd | jmpAbsXInd | brl =>
    exact frame rfl ((ordinaryFrame_of_p (s := s) rfl rfl).setPc _)
  | pha | phx | phy => exact frame rfl (ordinaryFrame_of_pushAt _ _ s)
  | phb | phk | php => exact frame rfl (ordinaryFrame_of_push8 _ s)
  | pea | pei | per | phd => exact frame (pushEffective_next _ _ s) (ordinaryFrame_of_pushEffective _ _ s)
  | jsrAbs => exact frame rfl (ordinaryFrame_of_push16 _ _ s)
  | jsrAbsXInd a => exact frame (exec_jsrAbsXInd a s) (ordinaryFrame_of_pushEffective _ _ s)
  | rts =>
    exact frame (exec_rts s) (ordinaryFrame_of_stack id fun he _ => by rw [he, highByte_pullPointer])
  | pla =>
    have hacc := ordinaryFrame_of_acc (s := s) (v := pulledValue (wm s) s)
      (hnz (wm s) (pulledValue (wm s) s) .m (.inl rfl)) (hnz _ _ .x (.inr rfl))
    exact frame (exec_pla s) ((hacc.setPulledPointer (wm s)).setPc _)
  | plx =>
    have hindex := ordinaryFrame_of_x (s := s) (v := pulledValue (wx s) s)
      (hnz (wx s) (pulledValue (wx s) s) .m (.inl rfl)) (hnz _ _ .x (.inr rfl))
    rw [truncTo_pulledValue] at hindex
    exact frame (exec_plx s) ((hindex.setPulledPointer (wx s)).setPc _)
  | ply =>
    have hindex := ordinaryFrame_of_y (s := s) (v := pulledValue (wx s) s)
      (hnz (wx s) (pulledValue (wx s) s) .m (.inl rfl)) (hnz _ _ .x (.inr rfl))
    rw [truncTo_pulledValue] at hindex
    exact frame (exec_ply s) ((hindex.setPulledPointer (wx s)).setPc _)
  | brk | cop | jsl | plp | pld | tsc | rti | mvp | mvn | tcd | jmlLong | rtl | tdc | plb | rep | wai | stp | jmlAbsLong
  | sep | xba | xce => exact Bool.noConfusion hi
  | _ => exact ordinaryFrame_of_shape (by nofun) h

end Sys2Proof.Machine
end

/-! ## The writers of the special registers and the emulation flag (O11 to O13) -/

section
namespace Sys2Proof.Machine

/-! ### The exceptional instructions one by one -/

/-- A property of all instructions holds when it holds of the ordinary ones and of each exceptional one. -/
theorem Instr.byExceptions {motive : Instr → Prop} (ordinary : ∀ i, isExceptional i = false → motive i)
    (brk : ∀ sig, motive (.brk sig)) (cop : ∀ sig, motive (.cop sig)) (rti : motive .rti)
    (wai : motive .wai) (stp : motive .stp)
    (jmlLong : ∀ l, motive (.jmlLong l)) (jmlAbsLong : ∀ a, motive (.jmlAbsLong a)) (jsl : ∀ l, motive (.jsl l))
    (rtl : motive .rtl) (rep : ∀ mask, motive (.rep mask)) (sep : ∀ mask, motive (.sep mask)) (xce : motive .xce)
    (plp : motive .plp) (pld : motive .pld) (plb : motive .plb) (tcd : motive .tcd) (tdc : motive .tdc)
    (tsc : motive .tsc) (xba : motive .xba) (mvn : ∀ dst src, motive (.mvn dst src))
    (mvp : ∀ dst src, motive (.mvp dst src)) (i : Instr) : motive i := by
  cases i with
  | brk sig => exact brk sig
  | cop sig => exact cop sig
  | rti => exact rti
  | wai => exact wai
  | stp => exact stp
  | jmlLong l => exact jmlLong l
  | jmlAbsLong a => exact jmlAbsLong a
  | jsl l => exact jsl l
  | rtl => exact rtl
  | rep mask => exact rep mask
  | sep mask => exact sep mask
  | xce => exact xce
  | plp => exact plp
  | pld => exact pld
  | plb => exact plb
  | tcd => exact tcd
  | tdc => exact tdc
  | tsc => exact tsc
  | xba => exact xba
  | mvn dst src => exact mvn dst src
  | mvp dst src => exact mvp dst src
  | _ => exact ordinary _ rfl

theorem exec_tdc (s : State) : exec .tdc s = .next { s with c := s.d, p := setNZ .w16 s.d s.p, pc := s.pc + 1 } := rfl

theorem exec_tsc (s : State) : exec .tsc s = .next { s with c := s.sp, p := setNZ .w16 s.sp s.p, pc := s.pc + 1 } := rfl

theorem exec_mvn (dst src : Byte) (s : State) : exec (.mvn dst src) s = .next (movedByte 0x0001 dst src s) :=
  exec_blockMove s dst src (_, _) (.head _)

theorem exec_mvp (dst src : Byte) (s : State) : exec (.mvp dst src) s = .next (movedByte 0xFFFF dst src s) :=
  exec_blockMove s dst src (_, _) (.tail _ (.head _))

/-- What an instruction does when it is known to answer `u`. -/
theorem eq_of_exec {i : Instr} {s t u : State} (hexec : exec i s = .next u) (h : exec i s = .next t) : t = u :=
  (Host.Outcome.next.inj (hexec.symm.trans h)).symm

/-! ### Every instruction answers a next state -/

theorem exec_next (i : Instr) (s : State) : ∃ t, exec i s = .next t := by
  cases i <;> exact ⟨_, rfl⟩

/-- No instruction touches the inputs to come or the parameters. -/
theorem exec_keeps_model_fields {i : Instr} {s t : State} (h : exec i s = .next t) :
    t.inputs = s.inputs ∧ t.params = s.params := by
  cases i using Instr.byExceptions with
  | ordinary i hi => exact ⟨(exec_ordinaryFrame hi h).inputs, (exec_ordinaryFrame hi h).params⟩
  | xce =>
    cases hc : getFlag s.p .c
    · obtain rfl := eq_of_exec (exec_xce_to_native hc) h
      exact ⟨rfl, rfl⟩
    · obtain rfl := eq_of_exec (exec_xce_to_emulation hc) h
      exact ⟨rfl, rfl⟩
  | _ =>
    obtain rfl := Host.Outcome.next.inj h
    constructor <;> simp

/-- A step is a reset, an entry, the end or the prolongation of a wait, an idle step, or an instruction. -/
theorem step_cases {s t : State} (h : step s = .next t) :
    ((inputsNow s).reset = true ∧ t = resetEntry (latchInputs s)) ∨
    ((inputsNow s).reset = false ∧
      ((∃ run abort, t = { latchInputs s with run := run, abortPending := abort }) ∨
        (∃ src run, t = interruptEntry src s.pc { latchInputs s with run := run }) ∨
        (plan s = .execute (latchInputs s) ∧ exec (fetchInstr (latchInputs s)) (latchInputs s) = .next t))) := by
  have answer {u : State} (hplan : plan s = .done u) : t = u := Host.Outcome.next.inj (h.symm.trans (step_of_done hplan))
  rcases plan_cases s with ⟨hr, hp⟩ | ⟨hr, -, hp⟩ | ⟨hr, -, ⟨-, hp⟩ | ⟨-, -, hp⟩ | ⟨src, -, -, hp⟩⟩ |
    ⟨hr, hrun, ⟨-, hp⟩ | ⟨src, -, hp⟩⟩
  · exact .inl ⟨hr, answer hp⟩
  · exact .inr ⟨hr, .inl ⟨_, _, answer hp⟩⟩
  · exact .inr ⟨hr, .inl ⟨_, false, answer hp⟩⟩
  · exact .inr ⟨hr, .inl ⟨.running, _, answer hp⟩⟩
  · exact .inr ⟨hr, .inr (.inl ⟨src, .running, answer hp⟩)⟩
  · exact .inr ⟨hr, .inr (.inr ⟨hp, (step_of_execute hp).symm.trans h⟩)⟩
  · exact .inr ⟨hr, .inr (.inl ⟨src, _, answer hp⟩)⟩

theorem step_next (s : State) : ∃ t, step s = .next t := by
  cases hplan : plan s with
  | done t => exact ⟨t, step_of_done hplan⟩
  | execute u =>
    obtain ⟨t, ht⟩ := exec_next (fetchInstr u) u
    exact ⟨t, (step_of_execute hplan).trans ht⟩

/-- Latching uses up the inputs of the step, and nothing after it touches them or the parameters. -/
theorem step_keeps_model_fields {s t : State} (h : step s = .next t) :
    t.inputs = s.inputs.tail ∧ t.params = s.params := by
  rcases step_cases h with ⟨-, rfl⟩ | ⟨-, ⟨_, _, rfl⟩ | ⟨src, _, rfl⟩ | ⟨-, hexec⟩⟩
  · exact ⟨rfl, rfl⟩
  · exact ⟨rfl, rfl⟩
  · exact ⟨interruptEntry_inputs .., interruptEntry_params ..⟩
  · exact exec_keeps_model_fields hexec

/-- Settles O11. -/
theorem nothingStops : Obligations.NothingStops :=
  ⟨exec_next, fun s =>
    have ⟨t, ht⟩ := step_next s
    ⟨t, ht, step_keeps_model_fields ht⟩⟩

/-! ### The emulation flag -/

theorem exec_keeps_e {i : Instr} {s t : State} (h : exec i s = .next t) (hi : i ≠ .xce) : t.e = s.e := by
  cases i using Instr.byExceptions with
  | ordinary i hord => exact (exec_ordinaryFrame hord h).e
  | xce => exact absurd rfl hi
  | _ =>
    obtain rfl := Host.Outcome.next.inj h
    simp

/-- Settles O12: `exec_keeps_e`, and of the other kinds of step (`step_cases`) reset alone writes e. -/
theorem emulationFlagWriters : Obligations.EmulationFlagWriters := by
  constructor
  · intro i s t h hne
    by_contra hi
    exact hne (exec_keeps_e h hi)
  · intro s t h hne
    rcases step_cases h with ⟨hreset, -⟩ | ⟨-, ⟨_, _, rfl⟩ | ⟨src, _, rfl⟩ | ⟨hplan, hexec⟩⟩
    · exact .inl hreset
    · exact absurd rfl hne
    · exact absurd (interruptEntry_e ..) hne
    · refine .inr ⟨_, hplan, ?_⟩
      by_contra hi
      have he : t.e = (latchInputs s).e := exec_keeps_e hexec hi
      exact hne he

/-! ### The special registers -/

/-- Which registers the entry by BRK or COP writes of those of `Obligations.SpecialRegisterWriters`. -/
theorem interruptEntry_writes (src : Source) (ret : Word) (s : State) :
    (interruptEntry src ret s).d = s.d ∧ (interruptEntry src ret s).c = s.c ∧
    (interruptEntry src ret s).run = .running ∧
    ((interruptEntry src ret s).dbr ≠ s.dbr → s.e = true ∧ s.params.emuIntClearsDbr = true) := by
  refine ⟨interruptEntry_d .., interruptEntry_c .., interruptEntry_run .., fun hne => ?_⟩
  by_contra hkept
  rw [interruptEntry_dbr, if_neg (mt (Bool.and_eq_true _ _).mp hkept)] at hne
  exact hne rfl

theorem movedByte_dbr_ne {step : Word} {dst src : Byte} {s : State} (hne : (movedByte step dst src s).dbr ≠ s.dbr) :
    s.params.blockMoveSetsDbr = true := by
  by_contra hkept
  exact hne (if_neg hkept)

/-- Settles O13: the ordinary instructions write none of these registers (`exec_ordinaryFrame`), of the exceptional ones
each its own. -/
theorem specialRegisterWriters : Obligations.SpecialRegisterWriters := by
  intro i s t h
  cases i using Instr.byExceptions with
  | ordinary i hi =>
    have hf := exec_ordinaryFrame hi h
    exact ⟨absurd hf.d, absurd hf.dbr, absurd hf.pbr, fun hrun => absurd (hf.run.trans hrun),
      fun hm => absurd (hf.hiddenB hm)⟩
  | brk sig =>
    obtain rfl := eq_of_exec (exec_brk sig s) h
    obtain ⟨hd, hc, hrun, hdbr⟩ := interruptEntry_writes .brk (s.pc + 2) s
    exact ⟨absurd hd, fun hne => .inr (.inr ⟨(hdbr hne).1, (hdbr hne).2, sig, .inl rfl⟩),
      fun _ => .inr (.inr (.inr (.inr ⟨sig, .inl rfl⟩))), fun _ => absurd hrun, fun _ => absurd (congrArg highByte hc)⟩
  | cop sig =>
    obtain rfl := eq_of_exec (exec_cop sig s) h
    obtain ⟨hd, hc, hrun, hdbr⟩ := interruptEntry_writes .cop (s.pc + 2) s
    exact ⟨absurd hd, fun hne => .inr (.inr ⟨(hdbr hne).1, (hdbr hne).2, sig, .inr rfl⟩),
      fun _ => .inr (.inr (.inr (.inr ⟨sig, .inr rfl⟩))), fun _ => absurd hrun, fun _ => absurd (congrArg highByte hc)⟩
  | rti =>
    cases he : s.e
    · obtain rfl := eq_of_exec (exec_rti_of_native he) h
      exact ⟨absurd rfl, absurd rfl, fun _ => .inr (.inr (.inr (.inl ⟨rfl, rfl⟩))), absurd, fun _ => absurd rfl⟩
    · obtain rfl := eq_of_exec (exec_rti_of_emulation he) h
      exact ⟨absurd rfl, absurd rfl, absurd rfl, absurd, fun _ => absurd rfl⟩
  | wai =>
    obtain rfl := eq_of_exec (exec_wai s) h
    exact ⟨absurd rfl, absurd rfl, absurd rfl, fun _ _ => .inl ⟨rfl, rfl⟩, fun _ => absurd rfl⟩
  | stp =>
    obtain rfl := eq_of_exec (exec_stp s) h
    exact ⟨absurd rfl, absurd rfl, absurd rfl, fun _ _ => .inr ⟨rfl, rfl⟩, fun _ => absurd rfl⟩
  | jmlLong l =>
    obtain rfl := eq_of_exec (exec_jmlLong l s) h
    exact ⟨absurd rfl, absurd rfl, fun _ => .inl ⟨l, .inl rfl⟩, absurd, fun _ => absurd rfl⟩
  | jsl l =>
    obtain rfl := eq_of_exec (exec_jsl l s) h
    exact ⟨absurd rfl, absurd rfl, fun _ => .inl ⟨l, .inr rfl⟩, absurd, fun _ => absurd rfl⟩
  | jmlAbsLong a =>
    obtain rfl := eq_of_exec (exec_jmlAbsLong a s) h
    exact ⟨absurd rfl, absurd rfl, fun _ => .inr (.inl ⟨a, rfl⟩), absurd, fun _ => absurd rfl⟩
  | rtl =>
    obtain rfl := eq_of_exec (exec_rtl s) h
    exact ⟨absurd rfl, absurd rfl, fun _ => .inr (.inr (.inl rfl)), absurd, fun _ => absurd rfl⟩
  | rep mask =>
    obtain rfl := eq_of_exec (exec_rep mask s) h
    exact ⟨absurd rfl, absurd rfl, absurd rfl, absurd, fun _ => absurd rfl⟩
  | sep mask =>
    obtain rfl := eq_of_exec (exec_sep mask s) h
    exact ⟨absurd rfl, absurd rfl, absurd rfl, absurd, fun _ => absurd rfl⟩
  | xce =>
    cases hc : getFlag s.p .c
    · obtain rfl := eq_of_exec (exec_xce_to_native hc) h
      exact ⟨absurd rfl, absurd rfl, absurd rfl, absurd, fun _ => absurd rfl⟩
    · obtain rfl := eq_of_exec (exec_xce_to_emulation hc) h
      exact ⟨absurd rfl, absurd rfl, absurd rfl, absurd, fun _ => absurd rfl⟩
  | plp =>
    obtain rfl := eq_of_exec (exec_plp s) h
    exact ⟨absurd rfl, absurd rfl, absurd rfl, absurd, fun _ => absurd rfl⟩
  | pld =>
    obtain rfl := eq_of_exec (exec_pld s) h
    exact ⟨fun _ => .inr rfl, absurd rfl, absurd rfl, absurd, fun _ => absurd rfl⟩
  | plb =>
    obtain rfl := eq_of_exec (exec_plb s) h
    exact ⟨absurd rfl, fun _ => .inl rfl, absurd rfl, absurd, fun _ => absurd rfl⟩
  | tcd =>
    obtain rfl := eq_of_exec (exec_tcd s) h
    exact ⟨fun _ => .inl rfl, absurd rfl, absurd rfl, absurd, fun _ => absurd rfl⟩
  | tdc =>
    obtain rfl := eq_of_exec (exec_tdc s) h
    exact ⟨absurd rfl, absurd rfl, absurd rfl, absurd, fun _ _ => .inl rfl⟩
  | tsc =>
    obtain rfl := eq_of_exec (exec_tsc s) h
    exact ⟨absurd rfl, absurd rfl, absurd rfl, absurd, fun _ _ => .inr (.inl rfl)⟩
  | xba =>
    obtain rfl := eq_of_exec (exec_xba s) h
    exact ⟨absurd rfl, absurd rfl, absurd rfl, absurd, fun _ _ => .inr (.inr (.inl rfl))⟩
  | mvn dst src =>
    obtain rfl := eq_of_exec (exec_mvn dst src s) h
    exact ⟨absurd rfl, fun hne => .inr (.inl ⟨movedByte_dbr_ne hne, dst, src, .inl rfl⟩), absurd rfl, absurd,
      fun _ _ => .inr (.inr (.inr ⟨dst, src, .inl rfl⟩))⟩
  | mvp dst src =>
    obtain rfl := eq_of_exec (exec_mvp dst src s) h
    exact ⟨absurd rfl, fun hne => .inr (.inl ⟨movedByte_dbr_ne hne, dst, src, .inr rfl⟩), absurd rfl, absurd,
      fun _ _ => .inr (.inr (.inr ⟨dst, src, .inr rfl⟩))⟩

end Sys2Proof.Machine
end

/-! ## The invariant (O9) -/

section
namespace Sys2Proof.Machine

/-! ### What keeps the invariant -/

theorem highByte_truncTo_w8 (v : Word) : highByte (truncTo .w8 v) = 0x00 := highByte_extendByte (lowByte v)

/-- While m and x are kept, and X and Y are kept or written at their width, S stays in page 1 and memory canonical, the
invariant is kept. -/
theorem Inv.of_modes_kept {s t : State} (h : Inv s) (he : t.e = s.e) (hm : getFlag t.p .m = getFlag s.p .m)
    (hx : getFlag t.p .x = getFlag s.p .x) (hsp : s.e = true → highByte s.sp = 0x01 → highByte t.sp = 0x01)
    (hindexX : t.x = s.x ∨ ∃ v, t.x = truncTo (wx s) v) (hindexY : t.y = s.y ∨ ∃ v, t.y = truncTo (wx s) v)
    (hmem : Memory.wf s.mem = true → Memory.wf t.mem = true) : Inv t := by
  obtain ⟨hwidths, hstack, hindex, hwf⟩ := h
  have index {old new : Word} (hflag : getFlag s.p .x = true) (hold : highByte old = 0x00)
      (hnew : new = old ∨ ∃ v, new = truncTo (wx s) v) : highByte new = 0x00 := by
    rcases hnew with rfl | ⟨v, rfl⟩
    · exact hold
    · rw [wx_of_flagX hflag, highByte_truncTo_w8]
  refine ⟨?_, ?_, ?_, hmem hwf⟩
  · intro hte
    rw [hm, hx]
    exact hwidths (he ▸ hte)
  · intro hte
    exact hsp (he ▸ hte) (hstack (he ▸ hte))
  · intro htx
    have hflag : getFlag s.p .x = true := hx ▸ htx
    obtain ⟨hxh, hyh⟩ := hindex hflag
    exact ⟨index hflag hxh hindexX, index hflag hyh hindexY⟩

/-- The same for what writes neither m, x, X nor Y. -/
theorem Inv.of_index_kept {s t : State} (h : Inv s) (he : t.e = s.e) (hm : getFlag t.p .m = getFlag s.p .m)
    (hx : getFlag t.p .x = getFlag s.p .x) (hsp : s.e = true → highByte s.sp = 0x01 → highByte t.sp = 0x01)
    (hindexX : t.x = s.x) (hindexY : t.y = s.y) (hmem : Memory.wf s.mem = true → Memory.wf t.mem = true) : Inv t :=
  h.of_modes_kept he hm hx hsp (.inl hindexX) (.inl hindexY) hmem

theorem Inv.setNZ {s : State} (h : Inv s) (w : Width) (v : Word) : Inv { s with p := Machine.setNZ w v s.p } :=
  h.of_index_kept rfl (getFlag_setNZ_of_mode (.inl rfl) w v s.p) (getFlag_setNZ_of_mode (.inr rfl) w v s.p) (fun _ => id) rfl
    rfl id

theorem Inv.of_ordinaryFrame {s t : State} (h : Inv s) (hf : OrdinaryFrame s t) : Inv t :=
  h.of_modes_kept hf.e hf.flagM hf.flagX hf.sp hf.indexX hf.indexY hf.mem

/-- A byte with bits 5 and 4 set has m and x set (R33). -/
theorem getFlag_or_widths (v : Byte) : getFlag (v ||| 0x30) .m = true ∧ getFlag (v ||| 0x30) .x = true := by
  constructor <;> rw [getFlag_or, getFlag_widths] <;> exact Bool.or_true _

/-- XH is cleared where x is 1, else the index register is as before. -/
theorem highByte_cleared {b : Bool} (hb : b = true) (v : Word) :
    highByte (if b then extendByte (lowByte v) else v) = 0x00 := by
  rw [if_pos hb, highByte_extendByte]

/-! ### The instructions that write m or x -/

theorem exec_rep_inv {mask : Byte} {s t : State} (hs : Inv s) (h : exec (.rep mask) s = .next t) : Inv t := by
  obtain rfl := eq_of_exec (exec_rep mask s) h
  obtain ⟨hwidths, hstack, hindex, hwf⟩ := hs
  have hcleared (f : Flag) : getFlag (s.p &&& ~~~widthSafeMask s.e mask) f =
      (getFlag s.p f && !getFlag (widthSafeMask s.e mask) f) := by
    rw [getFlag_and, getFlag_not]
  refine ⟨fun he => ?_, hstack, fun hx => hindex ?_, hwf⟩
  · obtain ⟨hm, hx⟩ := hwidths he
    have hheld (f : Flag) (hf : (f == .m || f == .x) = true) : getFlag (widthSafeMask s.e mask) f = false := by
      rw [getFlag_widthSafeMask, hf, he, Bool.and_self, Bool.not_true, Bool.and_false]
    rw [hcleared, hcleared, hm, hx, hheld .m rfl, hheld .x rfl]
    exact ⟨rfl, rfl⟩
  · rw [hcleared] at hx
    exact (Bool.and_eq_true_iff.mp hx).1

theorem exec_sep_inv {mask : Byte} {s t : State} (hs : Inv s) (h : exec (.sep mask) s = .next t) : Inv t := by
  obtain rfl := eq_of_exec (exec_sep mask s) h
  obtain ⟨hwidths, hstack, hindex, hwf⟩ := hs
  refine ⟨fun he => ?_, hstack, fun hx => ⟨highByte_cleared hx s.x, highByte_cleared hx s.y⟩, hwf⟩
  obtain ⟨hm, hx⟩ := hwidths he
  rw [getFlag_or, getFlag_or, hm, hx]
  exact ⟨rfl, rfl⟩

theorem exec_plp_inv {s t : State} (hs : Inv s) (h : exec .plp s = .next t) : Inv t := by
  obtain rfl := eq_of_exec (exec_plp s) h
  obtain ⟨hwidths, hstack, hindex, hwf⟩ := hs
  cases he : s.e
  case true =>
    refine ⟨fun _ => getFlag_or_widths _, fun _ => ?_, fun _ => hindex (hwidths he).2, hwf⟩
    exact highByte_pullPointer s.sp
  case false =>
    exact ⟨fun hne => absurd hne Bool.false_ne_true, fun hne => absurd hne Bool.false_ne_true,
      fun hx => ⟨highByte_cleared hx s.x, highByte_cleared hx s.y⟩, hwf⟩

theorem exec_rti_inv {s t : State} (hs : Inv s) (h : exec .rti s = .next t) : Inv t := by
  obtain ⟨hwidths, hstack, hindex, hwf⟩ := hs
  cases he : s.e
  case true =>
    obtain rfl := eq_of_exec (exec_rti_of_emulation he) h
    exact ⟨fun _ => getFlag_or_widths _, fun _ => highByte_joinBytes _ _, fun _ => hindex (hwidths he).2, hwf⟩
  case false =>
    obtain rfl := eq_of_exec (exec_rti_of_native he) h
    have hnative : s.e ≠ true := by simp [he]
    exact ⟨fun hne => absurd hne hnative, fun hne => absurd hne hnative,
      fun hx => ⟨highByte_cleared hx s.x, highByte_cleared hx s.y⟩, hwf⟩

theorem exec_xce_inv {s t : State} (hs : Inv s) (h : exec .xce s = .next t) : Inv t := by
  obtain ⟨hwidths, hstack, hindex, hwf⟩ := hs
  cases hc : getFlag s.p .c
  case true =>
    obtain rfl := eq_of_exec (exec_xce_to_emulation hc) h
    refine ⟨fun _ => ?_, fun _ => highByte_joinBytes _ _, fun _ => ⟨highByte_extendByte _, highByte_extendByte _⟩, hwf⟩
    simp [getFlag_setFlag]
  case false =>
    obtain rfl := eq_of_exec (exec_xce_to_native hc) h
    have hx : getFlag (setFlag s.p .c s.e) .x = getFlag s.p .x := getFlag_setFlag_of_ne s.p .c .x s.e (by decide)
    exact ⟨fun he => absurd he Bool.false_ne_true, fun he => absurd he Bool.false_ne_true, fun h => hindex (hx ▸ h), hwf⟩

/-! ### Interrupt entry, reset, latching -/

theorem interruptEntry_inv {s : State} (hs : Inv s) (src : Source) (ret : Word) : Inv (interruptEntry src ret s) := by
  have hkept (f : Flag) (hi : f ≠ .i) (hd : f ≠ .d) : getFlag (interruptEntry src ret s).p f = getFlag s.p f := by
    rw [interruptEntry_p, getFlag_setFlag_of_ne _ _ _ _ hd, getFlag_setFlag_of_ne _ _ _ _ hi]
  refine hs.of_index_kept (interruptEntry_e ..) (hkept .m (by decide) (by decide)) (hkept .x (by decide) (by decide))
    (fun he _ => ?_) (interruptEntry_x ..) (interruptEntry_y ..) (interruptEntry_wf src ret s)
  rw [interruptEntry_sp, pushFrame_sp, he, if_pos rfl, highByte_pushPointer]

theorem resetEntry_inv {s : State} (hwf : Memory.wf s.mem = true) : Inv (resetEntry s) :=
  ⟨fun _ => ⟨getFlag_resetEntry s .m, getFlag_resetEntry s .x⟩, fun _ => highByte_joinBytes _ _,
    fun _ => ⟨highByte_extendByte _, highByte_extendByte _⟩, hwf⟩

theorem latchInputs_inv {s : State} (hs : Inv s) : Inv (latchInputs s) :=
  hs.of_index_kept rfl (latchInputs_flagsKept s .m (by decide)) (latchInputs_flagsKept s .x (by decide)) (fun _ => id) rfl
    rfl id

/-- The invariant does not speak of the run state or the latches. -/
theorem Inv.setRun {s : State} (hs : Inv s) (run : RunState) (abort : Bool) :
    Inv { s with run := run, abortPending := abort } := hs

/-! ### Every instruction and every step -/

theorem exec_inv {i : Instr} {s t : State} (hs : Inv s) (h : exec i s = .next t) : Inv t := by
  cases i using Instr.byExceptions with
  | ordinary i hi => exact hs.of_ordinaryFrame (exec_ordinaryFrame hi h)
  | brk sig =>
    obtain rfl := eq_of_exec (exec_brk sig s) h
    exact interruptEntry_inv hs _ _
  | cop sig =>
    obtain rfl := eq_of_exec (exec_cop sig s) h
    exact interruptEntry_inv hs _ _
  | rti => exact exec_rti_inv hs h
  | rep mask => exact exec_rep_inv hs h
  | sep mask => exact exec_sep_inv hs h
  | xce => exact exec_xce_inv hs h
  | plp => exact exec_plp_inv hs h
  | wai =>
    obtain rfl := eq_of_exec (exec_wai s) h
    exact hs
  | stp =>
    obtain rfl := eq_of_exec (exec_stp s) h
    exact hs
  | jmlLong l =>
    obtain rfl := eq_of_exec (exec_jmlLong l s) h
    exact hs
  | jmlAbsLong a =>
    obtain rfl := eq_of_exec (exec_jmlAbsLong a s) h
    exact hs
  | jsl l =>
    obtain rfl := eq_of_exec (exec_jsl l s) h
    exact hs.of_index_kept rfl rfl rfl (fun he _ => highByte_widePointer he 3) rfl rfl
      fun hwf => push16n_wf _ _ (push8n_wf _ s hwf)
  | rtl =>
    obtain rfl := eq_of_exec (exec_rtl s) h
    refine hs.of_index_kept rfl rfl rfl (fun he _ => ?_) rfl rfl id
    exact (congrArg highByte (if_pos he)).trans (highByte_joinBytes _ _)
  | pld =>
    obtain rfl := eq_of_exec (exec_pld s) h
    refine hs.of_index_kept rfl (getFlag_setNZ_of_mode (.inl rfl) ..) (getFlag_setNZ_of_mode (.inr rfl) ..)
      (fun he _ => ?_) rfl rfl id
    exact (congrArg highByte (if_pos he)).trans (highByte_joinBytes _ _)
  | plb =>
    obtain rfl := eq_of_exec (exec_plb s) h
    refine hs.of_index_kept rfl (getFlag_setNZ_of_mode (.inl rfl) ..) (getFlag_setNZ_of_mode (.inr rfl) ..)
      (fun he _ => ?_) rfl rfl id
    rw [he, highByte_pullPointer]
  | tcd =>
    obtain rfl := eq_of_exec (exec_tcd s) h
    exact hs.setNZ _ _
  | tdc =>
    obtain rfl := eq_of_exec (exec_tdc s) h
    exact hs.setNZ _ _
  | tsc =>
    obtain rfl := eq_of_exec (exec_tsc s) h
    exact hs.setNZ _ _
  | xba =>
    obtain rfl := eq_of_exec (exec_xba s) h
    exact hs.setNZ _ _
  | mvn dst src =>
    obtain rfl := eq_of_exec (exec_mvn dst src s) h
    exact hs.of_modes_kept rfl rfl rfl (fun _ => id) (.inr ⟨_, rfl⟩) (.inr ⟨_, rfl⟩) (State.wf_write s _ _)
  | mvp dst src =>
    obtain rfl := eq_of_exec (exec_mvp dst src s) h
    exact hs.of_modes_kept rfl rfl rfl (fun _ => id) (.inr ⟨_, rfl⟩) (.inr ⟨_, rfl⟩) (State.wf_write s _ _)

/-- Settles O9: `exec_inv` for an instruction, and one lemma for each other kind of step (`step_cases`). -/
theorem stepKeepsInvariant : Obligations.StepKeepsInvariant := by
  intro s t hs h
  obtain ⟨-, -, -, hwf⟩ := id hs
  have hlatched := latchInputs_inv hs
  rcases step_cases h with ⟨-, rfl⟩ | ⟨-, ⟨run, abort, rfl⟩ | ⟨src, run, rfl⟩ | ⟨-, hexec⟩⟩
  · exact resetEntry_inv hwf
  · exact hlatched.setRun run abort
  · exact interruptEntry_inv (hlatched.setRun run _) src s.pc
  · exact exec_inv hlatched hexec

end Sys2Proof.Machine
end

/-! ## The accesses of instructions and steps (O14, O15) -/

section
namespace Sys2Proof.Machine

/-! ### The addresses that a list of accesses writes -/

@[simp] theorem writtenAddrs_append (l l' : List Access) : writtenAddrs (l ++ l') = writtenAddrs l ++ writtenAddrs l' := by
  simp [writtenAddrs]

@[simp] theorem writtenAddrs_nil : writtenAddrs [] = [] := rfl

@[simp] theorem writtenAddrs_cons_readOf (kind : AccessKind) (a : Addr) (l : List Access) :
    writtenAddrs (readOf kind a :: l) = writtenAddrs l := rfl

@[simp] theorem writtenAddrs_cons_writeOf (a : Addr) (l : List Access) :
    writtenAddrs (writeOf a :: l) = a :: writtenAddrs l := rfl

@[simp] theorem writtenAddrs_map_readOf (kind : AccessKind) (l : List Addr) : writtenAddrs (l.map (readOf kind)) = [] := by
  induction l with
  | nil => rfl
  | cons a l ih => exact ih

@[simp] theorem writtenAddrs_map_writeOf (l : List Addr) : writtenAddrs (l.map writeOf) = l := by
  induction l with
  | nil => rfl
  | cons a l ih => exact congrArg (a :: ·) ih

@[simp] theorem writtenAddrs_fetches (s : State) (start count : Nat) : writtenAddrs (fetches s start count) = [] := by
  have hreads (l : List Nat) :
      writtenAddrs (l.map fun n => readOf (if n = 0 then .opcode else .program) (fetchAddr s n)) = [] := by
    induction l with
    | nil => rfl
    | cons n l ih => exact ih
  exact hreads _

@[simp] theorem writtenAddrs_upToDatum (mode : Mode) (s : State) : writtenAddrs (upToDatum mode s) = [] := by
  simp [upToDatum]

@[simp] theorem writtenAddrs_storeAccesses (w : Width) (mode : Mode) (s : State) :
    writtenAddrs (storeAccesses w mode s) = datumBytes (mode.ea s) w := by
  simp [storeAccesses]

/-- A read-modify-write instruction writes the bytes of its datum, the high byte first (R61). -/
@[simp] theorem writtenAddrs_modifyAccesses (mode : Mode) (s : State) :
    writtenAddrs (modifyAccesses mode s) = (datumBytes (mode.ea s) (wm s)).reverse := by
  simp only [modifyAccesses, writtenAddrs_append, writtenAddrs_upToDatum]
  cases wm s <;> rfl

@[simp] theorem writtenAddrs_pushAccesses (wide : Bool) (len n : Nat) (s : State) :
    writtenAddrs (pushAccesses wide len n s) = pushBytes (s.e && !wide) n s.sp := by
  simp [pushAccesses]

@[simp] theorem writtenAddrs_entryAccesses (src : Source) (s : State) :
    writtenAddrs (entryAccesses src s) = pushBytes s.e (if s.e then 3 else 4) s.sp := by
  simp [entryAccesses]

@[simp] theorem writtenAddrs_moveAccesses (dst src : Byte) (s : State) :
    writtenAddrs (moveAccesses dst src s) = [bankAddr dst s.y] := by
  simp [moveAccesses]

@[simp] theorem writtenAddrs_jslAccesses (s : State) :
    writtenAddrs (jslAccesses s) = [stackAddr s.sp, stackAddr (s.sp - 1), stackAddr (s.sp - 2)] := by
  simp [jslAccesses]

@[simp] theorem writtenAddrs_jsrTableAccesses (a : Word) (s : State) :
    writtenAddrs (jsrTableAccesses a s) = [stackAddr s.sp, stackAddr (s.sp - 1)] := by
  simp [jsrTableAccesses]

/-! ### What pushes write -/

/-- The two addresses of a push with the 16-bit stack pointer. -/
theorem pushBytes_native_two (sp : Word) : pushBytes false 2 sp = [stackAddr sp, stackAddr (sp - 1)] := rfl

theorem pushAt_memoryKept (w : Width) (v : Word) (s : State) :
    memoryKept (pushBytes s.e (widthBytes w) s.sp) s (pushAt w v s) := by
  cases w
  case w8 => exact push8_memoryKept (lowByte v) s
  case w16 => exact push16_memoryKept v s

/-- An interrupt entry writes its three or four pushes (R310). -/
theorem interruptEntry_memoryKept (src : Source) (ret : Word) (s : State) :
    memoryKept (pushBytes s.e (if s.e then 3 else 4) s.sp) s (interruptEntry src ret s) := by
  suffices hframe : memoryKept (pushBytes s.e (if s.e then 3 else 4) s.sp) s (pushFrame src ret s) by
    intro a ha
    rw [interruptEntry_read, hframe a ha]
  cases he : s.e
  case true =>
    have haddr := push16_memoryKept ret s
    have hstatus := push8_memoryKept (stackedP src true s.p) (push16 ret s)
    rw [pushFrame_of_emulation he]
    rw [push16_sp, he] at hstatus
    rw [he] at haddr
    exact memoryKept_append haddr hstatus
  case false =>
    have hbank := push8_memoryKept s.pbr s
    have haddr := push16_memoryKept ret (push8 s.pbr s)
    have hstatus := push8_memoryKept s.p (push16 ret (push8 s.pbr s))
    rw [pushFrame_of_native he]
    simp only [push16_sp, push8_sp, push8_e, he] at haddr hstatus
    exact memoryKept_append hbank (memoryKept_append haddr hstatus)

/-- JSL writes its three pushes (R218). -/
theorem farCalled_memoryKept (l : Addr) (s : State) :
    memoryKept [stackAddr s.sp, stackAddr (s.sp - 1), stackAddr (s.sp - 2)] s (farCalled l s) := by
  intro a ha
  simp only [List.mem_cons, List.not_mem_nil, or_false, not_or] at ha
  obtain ⟨h0, h1, h2⟩ := ha
  rw [farCalled_read, if_neg h2, if_neg h1, if_neg h0]

/-! ### Every instruction and every step -/

theorem ReadOp.function_mem (op : ReadOp) (w : Width) (v : Word) (s : State) : (op.function w v s).mem = s.mem := by
  cases op <;> rfl

/-- An instruction of a shared shape changes only the bytes its accesses write. -/
theorem shape_memoryKept {i : Instr} {s t : State} (hshape : shapeOf i ≠ .own) (h : exec i s = .next t) :
    memoryKept (writtenAddrs (accesses i s)) s t := by
  rw [exec_shape] at h
  rw [accesses_shape]
  cases hi : shapeOf i with
  | read op o =>
    rw [hi] at h
    obtain rfl := Host.Outcome.next.inj h
    exact memoryKept_of_mem_eq (op.function_mem _ _ s) _
  | store op mode =>
    rw [hi] at h
    obtain rfl := Host.Outcome.next.inj ((storeInstr_next ..).symm.trans h)
    rw [Shape.accesses, writtenAddrs_storeAccesses]
    exact writeData_memoryKept (op.width s) (op.value s) s
  | modify op mode =>
    rw [hi] at h
    obtain rfl := Host.Outcome.next.inj ((modifyMemory_next ..).symm.trans h)
    rw [Shape.accesses, writtenAddrs_modifyAccesses]
    exact fun a ha => writeBack_memoryKept (mode.ea s) (wm s) _ s a (mt List.mem_reverse.mpr ha)
  | modifyAcc op =>
    rw [hi] at h
    obtain rfl := Host.Outcome.next.inj ((modifyAccumulator_next ..).symm.trans h)
    exact memoryKept_of_mem_eq rfl _
  | branch cond r =>
    rw [hi] at h
    obtain rfl := Host.Outcome.next.inj h
    exact memoryKept_of_mem_eq rfl _
  | own => exact absurd hi hshape

/-- Every instruction changes only the bytes its accesses write. -/
theorem exec_memoryKept {i : Instr} {s t : State} (h : exec i s = .next t) :
    memoryKept (writtenAddrs (accesses i s)) s t := by
  have kept {u : State} {l : List Addr} (hexec : exec i s = .next u) (hl : writtenAddrs (accesses i s) = l)
      (hu : memoryKept l s u) : memoryKept (writtenAddrs (accesses i s)) s t :=
    eq_of_exec hexec h ▸ hl ▸ hu
  cases i with
  | brk sig => exact kept (exec_brk sig s) (by simp [accesses]) (interruptEntry_memoryKept _ _ s)
  | cop sig => exact kept (exec_cop sig s) (by simp [accesses]) (interruptEntry_memoryKept _ _ s)
  | php | phb | phk => exact kept rfl (by simp [accesses, pushBytes]) (push8_memoryKept _ s)
  | pha | phx | phy => exact kept rfl (by simp [accesses]) (pushAt_memoryKept _ _ s)
  | pea | pei | per | phd =>
    exact kept (pushEffective_next _ _ s) (by simp [accesses, pushBytes_native_two]) (push16n_memoryKept _ s)
  | jsrAbs => exact kept rfl (by simp [accesses, pushBytes]) (push16_memoryKept _ s)
  | jsl l => exact kept (exec_jsl l s) (by simp [accesses]) (farCalled_memoryKept l s)
  | jsrAbsXInd a => exact kept (exec_jsrAbsXInd a s) (by simp [accesses]) (push16n_memoryKept _ s)
  | mvn dst src => exact kept (exec_mvn dst src s) (by simp [accesses]) (movedByte_memoryKept _ dst src s)
  | mvp dst src => exact kept (exec_mvp dst src s) (by simp [accesses]) (movedByte_memoryKept _ dst src s)
  | xce =>
    refine memoryKept_of_mem_eq ?_ _
    cases hc : getFlag s.p .c
    · rw [eq_of_exec (exec_xce_to_native hc) h]
    · rw [eq_of_exec (exec_xce_to_emulation hc) h]
  | clc | sec | cli | sei | cld | sed | clv | rep | sep | nop | wdm | wai | stp | rti | plp | pld | plb | pla | plx | ply
  | tax | tay | tsx | txy | tyx | txa | tya | tcs | txs | tcd | tdc | tsc | xba | inx | iny | dex | dey | brl | rts | rtl
  | jmpAbs | jmpAbsInd | jmpAbsXInd | jmlLong | jmlAbsLong =>
    refine memoryKept_of_mem_eq ?_ _
    obtain rfl := Host.Outcome.next.inj h
    simp
  | _ => exact shape_memoryKept (by nofun) h

theorem stepAccesses_of_done {s t : State} (h : plan s = .done t) : stepAccesses s = boundaryAccesses s := by
  rw [stepAccesses, h]

theorem stepAccesses_of_execute {s u : State} (h : plan s = .execute u) :
    stepAccesses s = accesses (fetchInstr u) u := by
  rw [stepAccesses, h]

/-- Settles O14: of the kinds of step (`plan_cases`) an entry and an instruction write memory, and
`interruptEntry_memoryKept` and `exec_memoryKept` say where. -/
theorem onlyListedBytesChange : Obligations.OnlyListedBytesChange := by
  intro s t h
  have answer {u : State} (hplan : plan s = .done u) : u = t := Host.Outcome.next.inj ((step_of_done hplan).symm.trans h)
  rcases plan_cases s with ⟨-, hp⟩ | ⟨-, -, hp⟩ |
    ⟨hr, hrun, ⟨-, hp⟩ | ⟨-, -, hp⟩ | ⟨src, hfirst, hmask, hp⟩⟩ | ⟨hr, hrun, ⟨-, hp⟩ | ⟨src, hfirst, hp⟩⟩
  · obtain rfl := answer hp
    exact memoryKept_of_mem_eq rfl _
  · obtain rfl := answer hp
    exact memoryKept_of_mem_eq rfl _
  · obtain rfl := answer hp
    exact memoryKept_of_mem_eq rfl _
  · obtain rfl := answer hp
    exact memoryKept_of_mem_eq rfl _
  · obtain rfl := answer hp
    have haccesses : boundaryAccesses s = entryAccesses src (latchInputs s) := by
      simp [boundaryAccesses, hr, hrun, hfirst, hmask]
    rw [stepAccesses_of_done hp, haccesses, writtenAddrs_entryAccesses]
    exact interruptEntry_memoryKept src s.pc { latchInputs s with run := .running }
  · rw [stepAccesses_of_execute hp]
    exact exec_memoryKept ((step_of_execute hp).symm.trans h)
  · obtain rfl := answer hp
    have haccesses : boundaryAccesses s = entryAccesses src (latchInputs s) := by
      simp [boundaryAccesses, hr, hrun, hfirst]
    rw [stepAccesses_of_done hp, haccesses, writtenAddrs_entryAccesses]
    exact interruptEntry_memoryKept src s.pc (latchInputs s)

/-! ### Read-modify-write accesses -/

/-- The forms of O15 are read-modify-write instructions over a mode without a pointer. -/
theorem accesses_of_modify_form {s : State} {o : Byte} {a : Word} {form : Instr × Mode}
    (h : form ∈ ((modifyForms o a).map fun f => (f.1, f.2.1)) ++ tsbForms o a ++ trbForms o a) :
    accesses form.1 s = modifyAccesses form.2 s ∧ pointerBytes form.2 s = [] := by
  simp only [modifyForms, tsbForms, trbForms, List.map_cons, List.map_nil, List.cons_append, List.nil_append,
    List.mem_cons, List.not_mem_nil, or_false] at h
  rcases h with rfl | rfl | rfl | rfl | rfl | rfl | rfl | rfl | rfl | rfl | rfl | rfl | rfl | rfl | rfl | rfl | rfl |
    rfl | rfl | rfl | rfl | rfl | rfl | rfl | rfl | rfl | rfl | rfl <;> exact ⟨rfl, rfl⟩

/-- Settles O15. -/
theorem modifyAccessOrder : Obligations.ModifyAccessOrder := by
  intro s o a form hform ea locked
  obtain ⟨haccesses, hpointer⟩ := accesses_of_modify_form (s := s) hform
  rw [haccesses, modifyAccesses, upToDatum, hpointer, List.map_nil, List.append_nil, List.append_assoc]
  cases wm s <;> rfl

end Sys2Proof.Machine
end
